-- ==== Sys2Proof/Word.lean ====
section
/-! DEFINITION. The word types of the window and of the image port (R13: byte, halfword, word). -/

namespace Sys2Proof

/-- 8 bits (R13). -/
abbrev Byte := BitVec 8

/-- 16 bits (R13). -/
abbrev Halfword := BitVec 16

/-- 32 bits (R13). -/
abbrev Word := BitVec 32

end Sys2Proof
end

