-- ==== Sys2Proof/Syntax.lean ====
section
/-! DEFINITION. The operations of the block: one constructor for each row of spec/opcode_table.json. -/

namespace Sys2Proof

/-- The five fields of CTRL that `write_control_field` accepts (R122, R96). -/
inductive CtrlField where
  | ctrlEn
  | nconfigpull
  | cdratio
  | axicfgen
  | cfgwdth
  deriving DecidableEq, Repr

/-- The eight host commands (R103) and the six Register Model micro-operations (R121 to R126). -/
inductive Instr where
  /-- `report_status` (R211). -/
  | reportStatus
  /-- `run_configuration` (R213). -/
  | runConfiguration
  /-- `load_bitstream` (R214). -/
  | loadBitstream
  /-- `set_ctrl_en val` (R215). -/
  | setCtrlEn (val : BitVec 8)
  /-- `set_nconfigpull val` (R216). -/
  | setNconfigpull (val : BitVec 8)
  /-- `set_cdratio val` (R217). -/
  | setCdratio (val : BitVec 8)
  /-- `set_axicfgen val` (R218). -/
  | setAxicfgen (val : BitVec 8)
  /-- `reset` (R219). -/
  | reset
  /-- `read_status` (R121). -/
  | readStatus
  /-- `write_status_mode(val)` (R123); `val` is an unsigned number. -/
  | writeStatusMode (val : Nat)
  /-- `read_control` (R124). -/
  | readControl
  /-- `write_control_field(f, val)` (R122); `val` is an unsigned number. -/
  | writeControlField (f : CtrlField) (val : Nat)
  /-- `read_gpio_interrupt_status` (R125). -/
  | readGpioInterruptStatus
  /-- `data_port_write(word)` (R126). -/
  | dataPortWrite (word : BitVec 32)
  deriving DecidableEq, Repr

end Sys2Proof
end

