-- ==== Sys2Proof/WellFormed.lean ====
section
/-! DEFINITION. Which operations have an encoding. -/

namespace Sys2Proof

/-- An operation is well formed when its operand fits the width it is expressed in. The operands of
the commands are 8 bits by type (R102). An operand of a micro-operation is "an unsigned number (8
bits when it comes from a command word)" (R122); the model's operand word gives it 8 bits (log 14). -/
def Instr.wellFormed : Instr → Bool
  | .reportStatus => true
  | .runConfiguration => true
  | .loadBitstream => true
  | .setCtrlEn _ => true
  | .setNconfigpull _ => true
  | .setCdratio _ => true
  | .setAxicfgen _ => true
  | .reset => true
  | .readStatus => true
  | .writeStatusMode val => decide (val < 256)
  | .readControl => true
  | .writeControlField _ val => decide (val < 256)
  | .readGpioInterruptStatus => true
  | .dataPortWrite _ => true

end Sys2Proof
end

