-- ==== Sys2Proof/Decode.lean ====
section
/-! DEFINITION. Decoding and encoding: the command word CMD16 (R102, R103, R107), the bus tag BUS16
(R106), and the model's own operand words after a tag. -/

namespace Sys2Proof

/-- The two formats of spec/opcode_table.json (R113). A number belongs to one of them by the port it
stands on; the same number may be in both (log 15). -/
inductive Format where
  | cmd16
  | bus16
  deriving DecidableEq, Repr

/-- An encoded operation: its format, its first word, and two operand words. A command has no operand
words. DESIGN CHOICE, log 14: the spec's tag names no operands, so the model puts the operands of a
micro-operation into these two words. -/
structure Encoded where
  format : Format
  first : Halfword
  lo : Halfword
  hi : Halfword
  deriving DecidableEq, Repr

/-- CMD16: `op[15:12] 0000 val[7:0]` (R102). -/
def cmd16 (op : BitVec 4) (val : BitVec 8) : Halfword :=
  (op.setWidth 16 <<< 12) ||| val.setWidth 16

/-- BUS16: `dir[15] rng[14] size[13:12] offset[11:0]` (R106). -/
def bus16 (dir rng : BitVec 1) (size : BitVec 2) (offset : BitVec 12) : Halfword :=
  (dir.setWidth 16 <<< 15) ||| (rng.setWidth 16 <<< 14) ||| (size.setWidth 16 <<< 12) ||| offset.setWidth 16

/-- `RD8 CSR+0x000` (R106). -/
def tagReadStatus : Halfword := bus16 0 0 0 0x000
/-- `WR8 CSR+0x000` (R106). -/
def tagWriteStatus : Halfword := bus16 1 0 0 0x000
/-- `RD16 CSR+0x004` (R106). -/
def tagReadControl : Halfword := bus16 0 0 1 0x004
/-- `WR16 CSR+0x004` (R106). -/
def tagWriteControl : Halfword := bus16 1 0 1 0x004
/-- `RD16 CSR+0x840` (R106). -/
def tagReadGpio : Halfword := bus16 0 0 1 0x840
/-- `WR32 DATA+0x000` (R106). -/
def tagWriteData : Halfword := bus16 1 1 2 0x000

/-- The code of a CTRL field in the model's operand word (log 14). -/
def fieldCode : CtrlField → BitVec 3
  | .ctrlEn => 0
  | .nconfigpull => 1
  | .cdratio => 2
  | .axicfgen => 3
  | .cfgwdth => 4

/-- The CTRL field of a code; codes 5 to 7 are no field. -/
def fieldOfCode (c : BitVec 3) : Option CtrlField :=
  if c = 0 then some .ctrlEn
  else if c = 1 then some .nconfigpull
  else if c = 2 then some .cdratio
  else if c = 3 then some .axicfgen
  else if c = 4 then some .cfgwdth
  else none

/-- The command a command word stands for (R103); `none` exactly for the illegal words of R107. -/
def decodeCmd (w : Halfword) : Option Instr :=
  let op : BitVec 4 := w.extractLsb' 12 4
  let zero : BitVec 4 := w.extractLsb' 8 4
  let val : BitVec 8 := w.extractLsb' 0 8
  if zero ≠ 0 then none
  else if op = 4 then some (.setCtrlEn val)
  else if op = 5 then some (.setNconfigpull val)
  else if op = 6 then some (.setCdratio val)
  else if op = 7 then some (.setAxicfgen val)
  else if val ≠ 0 then none
  else if op = 1 then some .reportStatus
  else if op = 2 then some .runConfiguration
  else if op = 3 then some .loadBitstream
  else if op = 8 then some .reset
  else none

/-- The micro-operation a tag and its operand words stand for (R106, log 14). -/
def decodeBus (tag lo hi : Halfword) : Option Instr :=
  if tag = tagReadStatus then
    if lo = 0 ∧ hi = 0 then some .readStatus else none
  else if tag = tagReadControl then
    if lo = 0 ∧ hi = 0 then some .readControl else none
  else if tag = tagReadGpio then
    if lo = 0 ∧ hi = 0 then some .readGpioInterruptStatus else none
  else if tag = tagWriteStatus then
    if lo.extractLsb' 8 8 = 0 ∧ hi = 0 then some (.writeStatusMode (lo.extractLsb' 0 8).toNat) else none
  else if tag = tagWriteControl then
    if lo.extractLsb' 11 5 = 0 ∧ hi = 0 then
      match fieldOfCode (lo.extractLsb' 8 3) with
      | some f => some (.writeControlField f (lo.extractLsb' 0 8).toNat)
      | none => none
    else none
  else if tag = tagWriteData then some (.dataPortWrite ((hi.setWidth 32 <<< 16) ||| lo.setWidth 32))
  else none

/-- The decoder: total, `none` for what no row of the table assigns. -/
def decode (e : Encoded) : Option Instr :=
  match e.format with
  | .cmd16 => if e.lo = 0 ∧ e.hi = 0 then decodeCmd e.first else none
  | .bus16 => decodeBus e.first e.lo e.hi

/-- A command without operand words. -/
def encodeCmd (op : BitVec 4) (val : BitVec 8) : Encoded := ⟨.cmd16, cmd16 op val, 0, 0⟩

/-- The encoder, from R103 and R106. -/
def encode : Instr → Encoded
  | .reportStatus => encodeCmd 1 0
  | .runConfiguration => encodeCmd 2 0
  | .loadBitstream => encodeCmd 3 0
  | .setCtrlEn val => encodeCmd 4 val
  | .setNconfigpull val => encodeCmd 5 val
  | .setCdratio val => encodeCmd 6 val
  | .setAxicfgen val => encodeCmd 7 val
  | .reset => encodeCmd 8 0
  | .readStatus => ⟨.bus16, tagReadStatus, 0, 0⟩
  | .writeStatusMode val => ⟨.bus16, tagWriteStatus, (BitVec.ofNat 8 val).setWidth 16, 0⟩
  | .readControl => ⟨.bus16, tagReadControl, 0, 0⟩
  | .writeControlField f val =>
      ⟨.bus16, tagWriteControl, ((fieldCode f).setWidth 16 <<< 8) ||| (BitVec.ofNat 8 val).setWidth 16, 0⟩
  | .readGpioInterruptStatus => ⟨.bus16, tagReadGpio, 0, 0⟩
  | .dataPortWrite word => ⟨.bus16, tagWriteData, word.extractLsb' 0 16, word.extractLsb' 16 16⟩

/-- The command word of a command: what R210 stores in `cmd`. -/
def cmdWord (i : Instr) : Halfword := (encode i).first

/-- The first word and the operand words of a number whose bit 0 is the least significant bit of the
first word. -/
def tableWords (nbits w : Nat) : Halfword × Halfword × Halfword :=
  let v := w % 2 ^ nbits
  (BitVec.ofNat 16 v, BitVec.ofNat 16 (v >>> 16), BitVec.ofNat 16 (v >>> 32))

/-- The operation a table word stands for: read as a command word, else as a bus tag with its operand
words. DESIGN CHOICE, log 15: 0x8000 is the command `reset` and also the tag of `write_status_mode`;
it reads as the command. -/
def decodeTableWord (nbits w : Nat) : Option Instr :=
  let (first, lo, hi) := tableWords nbits w
  match decode ⟨.cmd16, first, lo, hi⟩ with
  | some i => some i
  | none => decode ⟨.bus16, first, lo, hi⟩

end Sys2Proof
end

