-- ==== Sys2Proof/Config.lean ====
section
/-! DEFINITION. The implementation parameters of R7, their preconditions, the baseline, and the one
free value of the model. -/

namespace Sys2Proof

/-- What the loader does with a final block of 1 to 3 bytes (R7, R194, R195). -/
inductive ShortBlockPolicy where
  | zeroPad
  | reject
  deriving DecidableEq, Repr

/-- The parameters of R7. The two fixed sizes of R7 (block size 4, data word 32 bits) are in the
types of the working registers. -/
structure Config where
  /-- `CSR_BASE`. -/
  csrBase : Nat
  /-- `DATA_BASE`. -/
  dataBase : Nat
  /-- `CSR_EXTENT`, bytes mapped from `CSR_BASE`. -/
  csrExtent : Nat
  /-- `DATA_EXTENT`, bytes mapped from `DATA_BASE`. -/
  dataExtent : Nat
  /-- `CDRATIO_CONST`, written by run step 5. -/
  cdratioConst : BitVec 2
  /-- `EXPECTED_MSEL`, read by no rule (R32). -/
  expectedMsel : BitVec 5
  /-- `POLL_LIMIT`: `none` is the baseline, `some N` the hardened variant (R8). -/
  pollLimit : Option Nat
  /-- `SHORT_BLOCK_POLICY`. -/
  shortBlockPolicy : ShortBlockPolicy
  deriving DecidableEq, Repr

/-- The preconditions R7, R65 and R66 put on the parameters: aligned bases, extents that hold the
four locations, disjoint ranges, and `N >= 1`. -/
def Config.valid (c : Config) : Bool :=
  decide (c.csrBase % 4 = 0) && decide (c.dataBase % 4 = 0) &&
  decide (0x842 ≤ c.csrExtent) && decide (4 ≤ c.dataExtent) &&
  (decide (c.csrBase + c.csrExtent ≤ c.dataBase) || decide (c.dataBase + c.dataExtent ≤ c.csrBase)) &&
  decide (c.pollLimit ≠ some 0)

/-- The parameters State.reset carries: the baseline variant (R7, R8).
PRESUMED, log 2: the bases and `CDRATIO_CONST` are the commonly documented ones of the spec's G5 and
G6 (the spec leaves them open, D5 and D6). DESIGN CHOICE, log 2: the extents are the least that R66
allows. Unsafe for a claim that rests on these numbers; no statement does. -/
def Config.baseline : Config where
  csrBase := 0xFF706000
  dataBase := 0xFFB90000
  csrExtent := 0x842
  dataExtent := 4
  cdratioConst := 3
  expectedMsel := 0b01010
  pollLimit := none
  shortBlockPolicy := .zeroPad

/-- FREE VALUE (U5): what STAT shows after the block has written a byte to it, until the device next
changes it. Its first argument is the counter `freeCtr` of State, its second the byte written.
Nothing constrains it. Log 6, safe. -/
opaque Config.statAfterWrite : Nat → Byte → Byte

end Sys2Proof
end

