-- ==== Sys2Proof/Machine/State.lean ====
section
/-! DEFINITION. The state of the block and of what it reaches (R20 to R46), its reset, and the reasons
a step can stop. -/

namespace Sys2Proof.Machine

/-- Why the machine stops. -/
inductive Fault where
  /-- The block has no step here: `pc` is a pair outside the table of R21, or `CMD_SETF` stands while
  `cmd` names no setter. Raised by every meaning and by `blockStep`. Safe: no reachable state is such a
  state, and the spec gives no step (log 18). -/
  | noSuchStep
  deriving DecidableEq, Repr

/-- Why a step is refused. -/
inductive Refusal where
  /-- The instruction has no meaning yet. Raised by `exec` alone. Safe. -/
  | notModelled (mnemonic : String)
  /-- The command asked for is not the one in progress: outside `IDLE` "the block has no step for it"
  (R221). Raised by the meanings of the commands, never by `step`. Safe (log 17). -/
  | notInProgress
  /-- The parameters break a precondition of R7, R65 or R66: U9 says "refuse". Raised by `step`. Safe
  (log 3). -/
  | badConfiguration
  deriving DecidableEq, Repr

/-- What `pc` says the block is doing (R21). -/
inductive Major where
  | idle
  | run1 | run2 | run3 | run4 | run5 | run6 | run7 | run8 | run9 | run10
  | run11a | run11b | run12
  | cmdReport | cmdSetf | cmdReset | cmdLoad
  deriving DecidableEq, Repr

/-- The phase inside a major step: 0, 1 or 2 (R21). -/
inductive Minor where
  | m0 | m1 | m2
  deriving DecidableEq, Repr

/-- The step register (R21). -/
structure Pc where
  major : Major
  minor : Minor
  deriving DecidableEq, Repr

/-- The result kinds (R104, R257): `Ok`, the five of the source, and `IllegalCommand`. -/
inductive ResultKind where
  | ok
  | registerAccessUnavailable
  | invalidFieldValue
  | imageSourceUnavailable
  | malformedImage
  | configurationTimedOut
  | illegalCommand
  deriving DecidableEq, Repr

/-- The status snapshot (R26). -/
structure Snap where
  msel : BitVec 5
  mode : BitVec 3
  cfgwdth : BitVec 1
  cdratio : BitVec 2
  axicfgen : BitVec 1
  nconfigpull : BitVec 1
  configurationDone : BitVec 1
  ctrlEn : BitVec 1
  deriving DecidableEq, Repr

/-- The loader's block buffer `blk[0..3]` (R23). -/
structure Block where
  b0 : Byte
  b1 : Byte
  b2 : Byte
  b3 : Byte
  deriving DecidableEq, Repr

/-- What the image source does at a coming read where it is not well-behaved (R78, R79): it returns at
most `k` bytes, or fails. -/
inductive ImgPlan where
  | atMost (k : Fin 5)
  | fail
  deriving DecidableEq, Repr

/-- One external event (R11). The window's events carry the effective address (R61). -/
inductive Event where
  | cmd (w : Halfword)
  | res (code : BitVec 4)
  | rd8 (addr : Nat) (v : Byte)
  | rd16 (addr : Nat) (v : Halfword)
  | wr8 (addr : Nat) (v : Byte)
  | wr16 (addr : Nat) (v : Halfword)
  | wr32 (addr : Nat) (v : Word)
  | img (bytes : List Byte)
  | imgErr
  deriving DecidableEq, Repr

/-- One move of the environment (R6, R22, R44), taken between two steps of the block. -/
inductive EnvMove where
  /-- The device shows this byte in STAT from now on. -/
  | showStat (v : Byte)
  /-- The device, or another master, makes CTRL this halfword (R70, R293). -/
  | showCtrl (v : Halfword)
  /-- The device shows this halfword in GPIO_INTSTAT. -/
  | showGpio (v : Halfword)
  /-- The host offers one more command word. -/
  | offerCommand (w : Halfword)
  /-- The window is mapped or unmapped; no move while the block is busy (U19, log 9). -/
  | setWinMapped (b : Bool)
  /-- The host supplies an image, positioned at its start (R285). -/
  | supplyImage (bytes : List Byte) (plan : List ImgPlan)
  /-- Block reset (R280). -/
  | blockReset
  deriving DecidableEq, Repr

/-- The whole state. INVENTORY.md lists each field with its rule and reset value. -/
structure State where
  -- the block's own state (R20)
  pc : Pc
  busy : Bool
  result : BitVec 4
  snap : Snap
  cmd : Halfword
  ctl : Halfword
  st : Byte
  gp : Halfword
  blk : Block
  n : BitVec 3
  w : Word
  polls : Nat
  -- the device (R29 to R42)
  statReg : Byte
  ctrlReg : Halfword
  gpioReg : Halfword
  fifo : List Word
  -- the ports' inputs (R45, R78, R43, R210)
  winMapped : Bool
  image : List Byte
  imgPos : Nat
  imgPlan : List ImgPlan
  cmdPort : List Halfword
  -- the model's own: parameters, the environment's coming moves, the trace, the free value's counter
  cfg : Config
  env : List (List EnvMove)
  trace : List Event
  freeCtr : Nat
  deriving DecidableEq, Repr

/-- The state after reset (R46). DESIGN CHOICE: the device's registers are 0 and its FIFO empty (log 7),
the window is mapped (log 8), the image source holds nothing (log 10), no command is offered (log 11),
the parameters are `Config.baseline` (log 2), and the model's own fields are empty (logs 4, 6, 12).
Unsafe for a claim that rests on one of these values. -/
def State.reset : State where
  pc := ⟨.idle, .m0⟩
  busy := false
  result := 0
  snap := ⟨0, 0, 0, 0, 0, 0, 0, 0⟩
  cmd := 0
  ctl := 0
  st := 0
  gp := 0
  blk := ⟨0, 0, 0, 0⟩
  n := 0
  w := 0
  polls := 0
  statReg := 0
  ctrlReg := 0
  gpioReg := 0
  fifo := []
  winMapped := true
  image := []
  imgPos := 0
  imgPlan := []
  cmdPort := []
  cfg := Config.baseline
  env := []
  trace := []
  freeCtr := 0

/-- What a step answers. -/
abbrev StepResult := Host.Outcome State Fault Refusal

end Sys2Proof.Machine
end

