-- ==== Sys2Proof/Machine/Operands.lean ====
section
/-! DEFINITION. Fields and their assembly: R93, R96 to R101, R112. -/

namespace Sys2Proof.Machine

/-- A field descriptor of R96. -/
structure FieldDesc where
  shift : Nat
  width : Nat
  deriving DecidableEq, Repr

/-- `mask = ((1 << width) - 1) << shift`, at the register's width (R96). -/
def fieldMask (d : FieldDesc) (size : Nat) : BitVec size :=
  BitVec.ofNat size (((1 <<< d.width) - 1) <<< d.shift)

/-- `extract(f, v) = (v & mask_f) >> shift_f`, of `width_f` bits (R97). -/
def extractField (d : FieldDesc) {size : Nat} (v : BitVec size) : BitVec d.width :=
  ((v &&& fieldMask d size) >>> d.shift).setWidth d.width

/-- `insert(f, old, val) = (old & ~mask_f) | ((val << shift_f) & mask_f)` (R98). -/
def insertField (d : FieldDesc) {size : Nat} (old : BitVec size) (val : Nat) : BitVec size :=
  (old &&& ~~~ fieldMask d size) ||| ((BitVec.ofNat size val <<< d.shift) &&& fieldMask d size)

/-- `fits(f, val)`: `val <= 2^width_f - 1` (R99). -/
def fitsField (d : FieldDesc) (val : Nat) : Bool := decide (val ≤ 2 ^ d.width - 1)

/-- The fields of CTRL (R92, R96). -/
def ctrlDesc : CtrlField → FieldDesc
  | .ctrlEn => ⟨0, 1⟩
  | .nconfigpull => ⟨2, 1⟩
  | .cdratio => ⟨6, 2⟩
  | .axicfgen => ⟨8, 1⟩
  | .cfgwdth => ⟨9, 1⟩

/-- `mode` of STAT (R91, R96). -/
def modeDesc : FieldDesc := ⟨0, 3⟩

/-- `msel` of STAT (R91, R96). -/
def mselDesc : FieldDesc := ⟨3, 5⟩

/-- `configuration_done` of GPIO_INTSTAT (R94, R96). -/
def configurationDoneDesc : FieldDesc := ⟨1, 1⟩

/-- `STAT[2:0]` of a status byte. -/
def modeOf (v : Byte) : BitVec 3 := extractField modeDesc v

/-- `pack4`: the loader word, first byte lowest (R100). -/
def pack4 (b : Block) : Word :=
  b.b0.setWidth 32 ||| (b.b1.setWidth 32 <<< 8) ||| (b.b2.setWidth 32 <<< 16) ||| (b.b3.setWidth 32 <<< 24)

/-- The block buffer after a fetch that returned these bytes: they go to `blk[0..k-1]` in source order,
the rest is 0x00 (R24, R101, R191). -/
def fillBlock (c : List Byte) : Block := ⟨c.getD 0 0, c.getD 1 0, c.getD 2 0, c.getD 3 0⟩

/-- The names of the device's lifecycle phases (R93). -/
inductive Mode where
  | poweredOff
  | reset
  | configuring
  | initializing
  | userMode
  | undetermined
  deriving DecidableEq, Repr

/-- `decode_mode` (R93). -/
def decodeMode (m : BitVec 3) : Mode :=
  if m = 0 then .poweredOff
  else if m = 1 then .reset
  else if m = 2 then .configuring
  else if m = 3 then .initializing
  else if m = 4 then .userMode
  else .undetermined

/-- `encode_mode` (R112); `Undetermined` has no encoding. -/
def encodeMode : Mode → Option (BitVec 3)
  | .poweredOff => some 0
  | .reset => some 1
  | .configuring => some 2
  | .initializing => some 3
  | .userMode => some 4
  | .undetermined => none

end Sys2Proof.Machine
end

