-- ==== Sys2Proof/Machine/Flags.lean ====
section
/-! DEFINITION. The host-visible outputs: the result codes (R104) and the snapshot (R105, R211). The
block has no arithmetic flags (R25). -/

namespace Sys2Proof.Machine

/-- RES4 (R104). Code 0 is "none yet"; codes 8 to 15 are never produced. -/
def resultCode : ResultKind → BitVec 4
  | .ok => 1
  | .registerAccessUnavailable => 2
  | .invalidFieldValue => 3
  | .imageSourceUnavailable => 4
  | .malformedImage => 5
  | .configurationTimedOut => 6
  | .illegalCommand => 7

/-- The snapshot of a report, from `st`, `ctl` and `gp` (R211). -/
def assembleSnap (st : Byte) (ctl gp : Halfword) : Snap where
  msel := extractField mselDesc st
  mode := extractField modeDesc st
  cfgwdth := extractField (ctrlDesc .cfgwdth) ctl
  cdratio := extractField (ctrlDesc .cdratio) ctl
  axicfgen := extractField (ctrlDesc .axicfgen) ctl
  nconfigpull := extractField (ctrlDesc .nconfigpull) ctl
  configurationDone := extractField configurationDoneDesc gp
  ctrlEn := extractField (ctrlDesc .ctrlEn) ctl

/-- SNAP16, the packed snapshot (R105). -/
def packSnap (s : Snap) : Halfword :=
  s.msel.setWidth 16 ||| (s.mode.setWidth 16 <<< 5) ||| (s.cfgwdth.setWidth 16 <<< 8) |||
    (s.cdratio.setWidth 16 <<< 9) ||| (s.axicfgen.setWidth 16 <<< 11) |||
    (s.nconfigpull.setWidth 16 <<< 12) ||| (s.configurationDone.setWidth 16 <<< 13) |||
    (s.ctrlEn.setWidth 16 <<< 14)

end Sys2Proof.Machine
end

