-- ==== Sys2Proof/Machine/Ops.lean ====
section
/-! DEFINITION. The named operations of the block: window and image accesses, completion and raising,
acceptance, the shared steps of the sequences, and the environment's moves. -/

namespace Sys2Proof.Machine

/-! ### Effective addresses (R61) -/

/-- `CSR_BASE + 0x000`. -/
def statAddr (c : Config) : Nat := c.csrBase + 0x000
/-- `CSR_BASE + 0x004`. -/
def ctrlAddr (c : Config) : Nat := c.csrBase + 0x004
/-- `CSR_BASE + 0x840`. -/
def gpioAddr (c : Config) : Nat := c.csrBase + 0x840
/-- `DATA_BASE + 0x000`. -/
def dataAddr (c : Config) : Nat := c.dataBase + 0x000

/-! ### Window accesses: one transaction each (R62, R63, R69, R121 to R126) -/

/-- `x[st] <- MemRead(CSR_BASE + 0x000, 1)`. -/
def readStat (s : State) : State :=
  { s with st := s.statReg, trace := s.trace ++ [.rd8 (statAddr s.cfg) s.statReg] }

/-- `x[ctl] <- MemRead(CSR_BASE + 0x004, 2)`. -/
def readCtrl (s : State) : State :=
  { s with ctl := s.ctrlReg, trace := s.trace ++ [.rd16 (ctrlAddr s.cfg) s.ctrlReg] }

/-- `x[gp] <- MemRead(CSR_BASE + 0x840, 2)`. -/
def readGpio (s : State) : State :=
  { s with gp := s.gpioReg, trace := s.trace ++ [.rd16 (gpioAddr s.cfg) s.gpioReg] }

/-- `MemWrite(CSR_BASE + 0x004, 2, v)`. DESIGN CHOICE, log 5: CTRL holds what was written until a move
of the environment changes it (R44 (a)). -/
def writeCtrl (v : Halfword) (s : State) : State :=
  { s with ctrlReg := v, trace := s.trace ++ [.wr16 (ctrlAddr s.cfg) v] }

/-- `MemWrite(CSR_BASE + 0x000, 1, v)`. What STAT shows afterwards is a free value (U5, log 6). -/
def writeStat (v : Byte) (s : State) : State :=
  { s with
    statReg := Config.statAfterWrite s.freeCtr v
    freeCtr := s.freeCtr + 1
    trace := s.trace ++ [.wr8 (statAddr s.cfg) v] }

/-- `MemWrite(DATA_BASE + 0x000, 4, v)`: the FIFO takes every word (R42, R298). -/
def writeData (v : Word) (s : State) : State :=
  { s with fifo := s.fifo ++ [v], trace := s.trace ++ [.wr32 (dataAddr s.cfg) v] }

/-! ### The image port (R78) -/

/-- What an `ImgRead()` answers. -/
inductive ImgAnswer where
  | bytes (c : List Byte)
  | err
  deriving DecidableEq, Repr

/-- `Bytes(k, c)`: the next bytes of the image, at most `k`, the position advancing by their number. -/
def imgDeliver (k : Nat) (s : State) : ImgAnswer × State :=
  let c := (s.image.drop s.imgPos).take k
  (.bytes c, { s with imgPos := s.imgPos + c.length, trace := s.trace ++ [.img c] })

/-- `ImgRead()` (R78). An empty plan is the well-behaved source of R79, which returns
`min(4, remaining)` bytes. -/
def imgRead (s : State) : ImgAnswer × State :=
  match s.imgPlan with
  | [] => imgDeliver 4 s
  | .atMost k :: rest => imgDeliver k.val { s with imgPlan := rest }
  | .fail :: rest => (.err, { s with imgPlan := rest, trace := s.trace ++ [.imgErr] })

/-! ### Moving on, finishing, raising -/

/-- `pc <- (major, minor)`. -/
def goto (major : Major) (minor : Minor) (s : State) : State := { s with pc := ⟨major, minor⟩ }

/-- Enter a wait: `polls <- 0` (R165, R151; log 24). -/
def enterWait (major : Major) (s : State) : State := { s with pc := ⟨major, .m0⟩, polls := 0 }

/-- `finish(r)` of R210, and `raise` of R247, which are the same three assignments and the same event:
the command ends, nothing else changes, nothing is rolled back. There is no return from it (R253). -/
def finish (r : ResultKind) (s : State) : State :=
  { s with
    result := resultCode r
    busy := false
    pc := ⟨.idle, .m0⟩
    trace := s.trace ++ [.res (resultCode r)] }

/-- `x[cmd] <- w ; result <- 0 ; busy <- 1`, event `CMD w` (R210). -/
def latchCommand (w : Halfword) (s : State) : State :=
  { s with cmd := w, result := 0, busy := true, trace := s.trace ++ [.cmd w] }

/-- The accepting step of a legal word, checks in the order of R210. -/
def acceptCommand (w : Halfword) (valFits : Bool) (entry : Major) (s : State) : State :=
  if s.winMapped = false then finish .registerAccessUnavailable (latchCommand w s)
  else if valFits = false then finish .invalidFieldValue (latchCommand w s)
  else goto entry .m0 (latchCommand w s)

/-- The accepting step of an illegal word (R210, R220). -/
def rejectIllegal (w : Halfword) (s : State) : State := finish .illegalCommand (latchCommand w s)

/-- `acceptCommand` at `(IDLE, 0)`, the only pc of that major (R21). -/
def acceptStep (w : Halfword) (valFits : Bool) (entry : Major) (s : State) : StepResult :=
  match s.pc.minor with
  | .m0 => .next (acceptCommand w valFits entry s)
  | _ => .fault .noSuchStep

/-! ### The shared steps

Each takes what the sequence does after its events: where `pc` goes, or `finish`. -/

/-- `write_control_field(f, val)` (R122): the check, then the read half at minor 0 and the write half at
minor 1. -/
def controlFieldStep (f : CtrlField) (val : Nat) (afterRead afterWrite : State → State) (s : State) :
    StepResult :=
  if fitsField (ctrlDesc f) val = false then .next (finish .invalidFieldValue s)
  else match s.pc.minor with
    | .m0 => .next (afterRead (readCtrl s))
    | .m1 => .next (afterWrite (writeCtrl (insertField (ctrlDesc f) s.ctl val) s))
    | .m2 => .fault .noSuchStep

/-- `write_status_mode(val)` (R123), in the same two halves. -/
def statusModeStep (val : Nat) (afterRead afterWrite : State → State) (s : State) : StepResult :=
  if fitsField modeDesc val = false then .next (finish .invalidFieldValue s)
  else match s.pc.minor with
    | .m0 => .next (afterRead (readStat s))
    | .m1 => .next (afterWrite (writeStat (insertField modeDesc s.st val) s))
    | .m2 => .fault .noSuchStep

/-- `snap` assembled from `st`, `ctl` and `gp` (R211). -/
def takeSnap (s : State) : State := { s with snap := assembleSnap s.st s.ctl s.gp }

/-- The three reads of a report (R211, R153, R164). -/
def reportStep (done : State → State) (s : State) : StepResult :=
  match s.pc.minor with
  | .m0 => .next (goto s.pc.major .m1 (readStat s))
  | .m1 => .next (goto s.pc.major .m2 (readCtrl s))
  | .m2 => .next (done (takeSnap (readGpio s)))

/-- `x[polls] <- x[polls] + 1` (R151). -/
def countPoll (s : State) : State := { s with polls := s.polls + 1 }

/-- One pass of `wait_for_mode(t)`: R150 in the baseline, R151 in the hardened variant. -/
def waitStep (t : BitVec 3) (done : State → State) (s : State) : StepResult :=
  match s.pc.minor with
  | .m0 =>
    match s.cfg.pollLimit with
    | none =>
      if modeOf s.statReg = t then .next (done (readStat s)) else .next (readStat s)
    | some limit =>
      if modeOf s.statReg = t then .next (done (countPoll (readStat s)))
      else if s.polls + 1 = limit then .next (finish .configurationTimedOut (countPoll (readStat s)))
      else .next (countPoll (readStat s))
  | _ => .fault .noSuchStep

/-- `n`, `blk` and `w` after a fetch that returned the bytes `c` (R190, R191). -/
def storeBlock (c : List Byte) (s : State) : State :=
  { s with n := BitVec.ofNat 3 c.length, blk := fillBlock c, w := pack4 (fillBlock c) }

/-- The loader's fetch step (R190 to R196). -/
def fetchStep (done : State → State) (s : State) : State :=
  match imgRead s with
  | (.err, t) => finish .imageSourceUnavailable t
  | (.bytes c, t) =>
    if c.length = 4 then goto s.pc.major .m1 (storeBlock c t)
    else if c.length = 0 then done (storeBlock c t)
    else match s.cfg.shortBlockPolicy with
      | .zeroPad => goto s.pc.major .m1 (storeBlock c t)
      | .reject => finish .malformedImage (storeBlock c t)

/-- The loader's write step: after a full block fetch again, after a short one the load ends (R165,
R190). -/
def writeStep (done : State → State) (s : State) : State :=
  if s.n = 4 then goto s.pc.major .m0 (writeData s.w s) else done (writeData s.w s)

/-- One step of `load` (R190). -/
def loadStep (done : State → State) (s : State) : StepResult :=
  match s.pc.minor with
  | .m0 => .next (fetchStep done s)
  | .m1 => .next (writeStep done s)
  | .m2 => .fault .noSuchStep

/-! ### Legal pc values (R21) -/

/-- The pairs of the table of R21. -/
def pcLegal (p : Pc) : Bool :=
  match p.major, p.minor with
  | .idle, .m0 | .run4, .m0 | .run7, .m0 | .run10, .m0 => true
  | .idle, _ | .run4, _ | .run7, _ | .run10, _ => false
  | .run1, _ | .run12, _ | .cmdReport, _ => true
  | _, .m2 => false
  | _, _ => true

/-! ### The environment (R6, R22, R44) -/

/-- Block reset (R280, R281): the block's own state takes the values of R46; the device, the image
source, the host's offered words and the model's own fields stay, but a new trace begins, since a
lifetime runs from reset to reset (R5, R11). -/
def blockReset (s : State) : State :=
  { State.reset with
    statReg := s.statReg
    ctrlReg := s.ctrlReg
    gpioReg := s.gpioReg
    fifo := s.fifo
    winMapped := s.winMapped
    image := s.image
    imgPos := s.imgPos
    imgPlan := s.imgPlan
    cmdPort := s.cmdPort
    cfg := s.cfg
    env := s.env
    freeCtr := s.freeCtr }

/-- The effect of one move of the environment. -/
def applyMove (s : State) : EnvMove → State
  | .showStat v => { s with statReg := v }
  | .showCtrl v => { s with ctrlReg := v }
  | .showGpio v => { s with gpioReg := v }
  | .offerCommand w => { s with cmdPort := s.cmdPort ++ [w] }
  | .setWinMapped b => if s.busy then s else { s with winMapped := b }
  | .supplyImage bytes plan => { s with image := bytes, imgPos := 0, imgPlan := plan }
  | .blockReset => blockReset s

/-- The moves of one gap, in order. -/
def applyMoves (ms : List EnvMove) (s : State) : State := ms.foldl applyMove s

/-- The gap before a step: the moves at the head of the schedule, which is then dropped. -/
def applyEnv (s : State) : State :=
  match s.env with
  | [] => s
  | ms :: rest => applyMoves ms { s with env := rest }

end Sys2Proof.Machine
end

