-- ==== Sys2Proof/Machine/Commands.lean ====
section
/-! DEFINITION. The eight host commands (R210 to R219). A command is several steps of the block, and
every step has one external event (R22): the meaning of a command is the step it takes at each of its
`pc` values, the accepting step at `(IDLE, 0)` among them. At a `pc` of another command the block has
no step for it (R221). -/

namespace Sys2Proof.Machine

/-- `report_status` (R211). -/
def execReportStatus (s : State) : StepResult :=
  if s.pc.major = .idle then acceptStep (cmdWord .reportStatus) true .cmdReport s
  else if s.pc.major = .cmdReport then reportStep (finish .ok) s
  else .refused .notInProgress

/-- `load_bitstream` (R214). -/
def execLoadBitstream (s : State) : StepResult :=
  if s.pc.major = .idle then acceptStep (cmdWord .loadBitstream) true .cmdLoad s
  else if s.pc.major = .cmdLoad then loadStep (finish .ok) s
  else .refused .notInProgress

/-- The four setters: `write_control_field(f, val)`, then `finish(Ok)` (R215 to R218). `CMD_SETF`
belongs to the setter whose word `cmd` holds (R27). -/
def setterStep (i : Instr) (f : CtrlField) (val : BitVec 8) (s : State) : StepResult :=
  if s.pc.major = .idle then
    acceptStep (cmdWord i) (fitsField (ctrlDesc f) val.toNat) .cmdSetf s
  else if s.pc.major = .cmdSetf ∧ s.cmd = cmdWord i then
    controlFieldStep f val.toNat (goto .cmdSetf .m1) (finish .ok) s
  else .refused .notInProgress

/-- `set_ctrl_en val` (R215). -/
def execSetCtrlEn (val : BitVec 8) (s : State) : StepResult :=
  setterStep (.setCtrlEn val) .ctrlEn val s

/-- `set_nconfigpull val` (R216). -/
def execSetNconfigpull (val : BitVec 8) (s : State) : StepResult :=
  setterStep (.setNconfigpull val) .nconfigpull val s

/-- `set_cdratio val` (R217). -/
def execSetCdratio (val : BitVec 8) (s : State) : StepResult :=
  setterStep (.setCdratio val) .cdratio val s

/-- `set_axicfgen val` (R218). -/
def execSetAxicfgen (val : BitVec 8) (s : State) : StepResult :=
  setterStep (.setAxicfgen val) .axicfgen val s

/-- `reset`: `write_status_mode(1)`, then `finish(Ok)` (R219). -/
def execReset (s : State) : StepResult :=
  if s.pc.major = .idle then acceptStep (cmdWord .reset) true .cmdReset s
  else if s.pc.major = .cmdReset then statusModeStep 1 (goto .cmdReset .m1) (finish .ok) s
  else .refused .notInProgress

end Sys2Proof.Machine
end

