-- ==== Sys2Proof/Machine/RegisterModel.lean ====
section
/-! DEFINITION. The six Register Model micro-operations (R120 to R126). A micro-operation does not move
`pc`: the sequence that holds it does (R165). Which half of a read-modify-write is to be done is the
minor part of `pc`, 0 the read and 1 the write (R21, log 13). -/

namespace Sys2Proof.Machine

/-- `read_status` (R121). -/
def execReadStatus (s : State) : StepResult := .next (readStat s)

/-- `write_control_field(f, val)` (R122). -/
def execWriteControlField (f : CtrlField) (val : Nat) (s : State) : StepResult :=
  controlFieldStep f val id id s

/-- `write_status_mode(val)` (R123). -/
def execWriteStatusMode (val : Nat) (s : State) : StepResult := statusModeStep val id id s

/-- `read_control` (R124). -/
def execReadControl (s : State) : StepResult := .next (readCtrl s)

/-- `read_gpio_interrupt_status` (R125). -/
def execReadGpioInterruptStatus (s : State) : StepResult := .next (readGpio s)

/-- `data_port_write(word)` (R126). -/
def execDataPortWrite (word : Word) (s : State) : StepResult := .next (writeData word s)

end Sys2Proof.Machine
end

