-- ==== Sys2Proof/Machine/Run.lean ====
section
/-! DEFINITION. `run_configuration`: the 12 steps of R152 in the order of R165. -/

namespace Sys2Proof.Machine

/-- `run_configuration` (R213): one line for each major step of R165, with the `(f_k, val_k)`, `t_k` and
next step given there. -/
def execRunConfiguration (s : State) : StepResult :=
  match s.pc.major with
  | .idle => acceptStep (cmdWord .runConfiguration) true .run1 s
  | .run1 => reportStep (goto .run2 .m0) s
  | .run2 => controlFieldStep .ctrlEn 1 (goto .run2 .m1) (goto .run3 .m0) s
  | .run3 => controlFieldStep .nconfigpull 1 (goto .run3 .m1) (enterWait .run4) s
  | .run4 => waitStep 1 (goto .run5 .m0) s
  | .run5 => controlFieldStep .cdratio s.cfg.cdratioConst.toNat (goto .run5 .m1) (goto .run6 .m0) s
  | .run6 => controlFieldStep .nconfigpull 0 (goto .run6 .m1) (enterWait .run7) s
  | .run7 => waitStep 2 (goto .run8 .m0) s
  | .run8 => controlFieldStep .axicfgen 1 (goto .run8 .m1) (goto .run9 .m0) s
  | .run9 => loadStep (enterWait .run10) s
  | .run10 => waitStep 4 (goto .run11a .m0) s
  | .run11a => controlFieldStep .axicfgen 0 (goto .run11a .m1) (goto .run11b .m0) s
  | .run11b => controlFieldStep .ctrlEn 0 (goto .run11b .m1) (goto .run12 .m0) s
  | .run12 => reportStep (finish .ok) s
  | .cmdReport | .cmdSetf | .cmdReset | .cmdLoad => .refused .notInProgress

end Sys2Proof.Machine
end

