-- ==== Sys2Proof/Machine/Dispatch.lean ====
section
/-! DEFINITION. One arm per operation. -/

namespace Sys2Proof.Machine

def exec (i : Instr) (s : State) : Host.Outcome State Fault Refusal :=
  match i with
  | .reportStatus => Sys2Proof.Machine.execReportStatus s
  | .runConfiguration => Sys2Proof.Machine.execRunConfiguration s
  | .loadBitstream => Sys2Proof.Machine.execLoadBitstream s
  | .setCtrlEn val => Sys2Proof.Machine.execSetCtrlEn val s
  | .setNconfigpull val => Sys2Proof.Machine.execSetNconfigpull val s
  | .setCdratio val => Sys2Proof.Machine.execSetCdratio val s
  | .setAxicfgen val => Sys2Proof.Machine.execSetAxicfgen val s
  | .reset => Sys2Proof.Machine.execReset s
  | .readStatus => Sys2Proof.Machine.execReadStatus s
  | .writeStatusMode val => Sys2Proof.Machine.execWriteStatusMode val s
  | .readControl => Sys2Proof.Machine.execReadControl s
  | .writeControlField f val => Sys2Proof.Machine.execWriteControlField f val s
  | .readGpioInterruptStatus => Sys2Proof.Machine.execReadGpioInterruptStatus s
  | .dataPortWrite word => Sys2Proof.Machine.execDataPortWrite word s

end Sys2Proof.Machine
end

