-- ==== Sys2Proof/Machine/Cycle.lean ====
section
/-! DEFINITION. One step of the block: accept an offered command in IDLE, else go on with the command in
progress; and where the hardwired sequences perform a given operation next. -/

namespace Sys2Proof.Machine

/-- The command in progress: `pc` names it (R21), and at `CMD_SETF` the word in `cmd` says which setter
it is (R27). -/
def inProgress (s : State) : Option Instr :=
  match s.pc.major with
  | .idle => none
  | .cmdReport => some .reportStatus
  | .cmdReset => some .reset
  | .cmdLoad => some .loadBitstream
  | .cmdSetf =>
    match decodeCmd s.cmd with
    | some (.setCtrlEn val) => some (.setCtrlEn val)
    | some (.setNconfigpull val) => some (.setNconfigpull val)
    | some (.setCdratio val) => some (.setCdratio val)
    | some (.setAxicfgen val) => some (.setAxicfgen val)
    | _ => none
  | _ => some .runConfiguration

/-- The step at `(IDLE, 0)`: with no word offered the block waits (R46, R283); an offered word is taken
off the port and accepted or refused (R210, R220). -/
def idleStep (s : State) : StepResult :=
  match s.pc.minor with
  | .m0 =>
    match s.cmdPort with
    | [] => .next s
    | word :: rest =>
      match decodeCmd word with
      | some i => exec i { s with cmdPort := rest }
      | none => .next (rejectIllegal word { s with cmdPort := rest })
  | _ => .fault .noSuchStep

/-- One step of the block (R22). While it is busy the command port is held off (R221). -/
def blockStep (s : State) : StepResult :=
  if s.pc.major = .idle then idleStep s
  else match inProgress s with
    | some i => exec i s
    | none => .fault .noSuchStep

/-- The micro-operation the hardwired sequences perform at this `pc` (R165, R211, R219), if the step's
event is a bus transaction. `load`'s fetch has none: `ImgRead` is no micro-operation. -/
def microOpAt (s : State) : Option Instr :=
  match s.pc.major, s.pc.minor with
  | .run1, .m0 | .run12, .m0 | .cmdReport, .m0 => some .readStatus
  | .run1, .m1 | .run12, .m1 | .cmdReport, .m1 => some .readControl
  | .run1, .m2 | .run12, .m2 | .cmdReport, .m2 => some .readGpioInterruptStatus
  | .run4, .m0 | .run7, .m0 | .run10, .m0 => some .readStatus
  | .run2, .m0 | .run2, .m1 => some (.writeControlField .ctrlEn 1)
  | .run3, .m0 | .run3, .m1 => some (.writeControlField .nconfigpull 1)
  | .run5, .m0 | .run5, .m1 => some (.writeControlField .cdratio s.cfg.cdratioConst.toNat)
  | .run6, .m0 | .run6, .m1 => some (.writeControlField .nconfigpull 0)
  | .run8, .m0 | .run8, .m1 => some (.writeControlField .axicfgen 1)
  | .run9, .m1 | .cmdLoad, .m1 => some (.dataPortWrite s.w)
  | .run11a, .m0 | .run11a, .m1 => some (.writeControlField .axicfgen 0)
  | .run11b, .m0 | .run11b, .m1 => some (.writeControlField .ctrlEn 0)
  | .cmdReset, .m0 | .cmdReset, .m1 => some (.writeStatusMode 1)
  | .cmdSetf, .m0 | .cmdSetf, .m1 =>
    match decodeCmd s.cmd with
    | some (.setCtrlEn val) => some (.writeControlField .ctrlEn val.toNat)
    | some (.setNconfigpull val) => some (.writeControlField .nconfigpull val.toNat)
    | some (.setCdratio val) => some (.writeControlField .cdratio val.toNat)
    | some (.setAxicfgen val) => some (.writeControlField .axicfgen val.toNat)
    | _ => none
  | _, _ => none

/-- `s` in the middle of the command `i`, at `(major, minor)`. -/
def duringCommand (i : Instr) (major : Major) (minor : Minor) (s : State) : State :=
  { s with pc := ⟨major, minor⟩, busy := true, cmd := cmdWord i }

/-- Where a command performs this micro-operation: a state whose next step is it. A host cannot issue a
micro-operation (R110), so it runs only there. `none` for what no command performs. -/
def placeMicroOp (i : Instr) (s : State) : Option State :=
  match i with
  | .readStatus => some (duringCommand .reportStatus .cmdReport .m0 s)
  | .readControl => some (duringCommand .reportStatus .cmdReport .m1 s)
  | .readGpioInterruptStatus => some (duringCommand .reportStatus .cmdReport .m2 s)
  | .writeControlField .ctrlEn val => some (duringCommand (.setCtrlEn (BitVec.ofNat 8 val)) .cmdSetf .m0 s)
  | .writeControlField .nconfigpull val =>
      some (duringCommand (.setNconfigpull (BitVec.ofNat 8 val)) .cmdSetf .m0 s)
  | .writeControlField .cdratio val => some (duringCommand (.setCdratio (BitVec.ofNat 8 val)) .cmdSetf .m0 s)
  | .writeControlField .axicfgen val =>
      some (duringCommand (.setAxicfgen (BitVec.ofNat 8 val)) .cmdSetf .m0 s)
  | .writeControlField .cfgwdth _ => none
  | .writeStatusMode val => if val = 1 then some (duringCommand .reset .cmdReset .m0 s) else none
  | .dataPortWrite word => some { duringCommand .loadBitstream .cmdLoad .m1 s with w := word }
  | .reportStatus | .runConfiguration | .loadBitstream | .reset => none
  | .setCtrlEn _ | .setNconfigpull _ | .setCdratio _ | .setAxicfgen _ => none

/-- `s` idle, with this word offered first. -/
def offerFirst (word : Halfword) (s : State) : State :=
  { s with pc := ⟨.idle, .m0⟩, busy := false, cmdPort := word :: s.cmdPort }

/-- `s` such that the next step runs the operation of this table word: a micro-operation at its place in
a command, any other word offered on the command port. The gap before that step holds no move of the
environment. -/
def placeTableWord (nbits w : Nat) (s : State) : State :=
  let offered := offerFirst (tableWords nbits w).1 s
  let placed :=
    match decodeTableWord nbits w with
    | some i => (placeMicroOp i s).getD offered
    | none => offered
  { placed with env := [] :: placed.env }

end Sys2Proof.Machine
end

