-- ==== Sys2Proof/Machine/Step.lean ====
section
/-! DEFINITION. One step of the machine: the environment's moves of the gap, then one step of the block. -/

namespace Sys2Proof.Machine

/-- One step. Parameters that break their preconditions are refused (U9, R65). -/
def step (s : State) : Host.Outcome State Fault Refusal :=
  if s.cfg.valid then blockStep (applyEnv s) else .refused .badConfiguration

/-- `s` with the operation of a table word placed where the next step runs it (log 16). -/
def State.withFetchWord (s : State) (nbits w : Nat) : State := placeTableWord nbits w s

end Sys2Proof.Machine
end

