-- ==== Sys2Proof/Safety.lean ====
section
/-! DEFINITION. The terms the statements use: runs of several steps, the invariant of the block, and
what the trace of a run must look like. -/

namespace Sys2Proof.Machine

/-- `k` steps, stopping at the first fault or refusal. -/
def runSteps : Nat → State → StepResult
  | 0, s => .next s
  | k + 1, s =>
    match step s with
    | .next t => runSteps k t
    | .fault r => .fault r
    | .refused r => .refused r

/-! ### The invariant -/

/-- The check of R210 on the operand of a setter: `fits(f_op, val)`. -/
def valueFits : Instr → Bool
  | .setCtrlEn val => fitsField (ctrlDesc .ctrlEn) val.toNat
  | .setNconfigpull val => fitsField (ctrlDesc .nconfigpull) val.toNat
  | .setCdratio val => fitsField (ctrlDesc .cdratio) val.toNat
  | .setAxicfgen val => fitsField (ctrlDesc .axicfgen) val.toNat
  | _ => true

/-- The majors of a wait (R150). -/
def isWait (m : Major) : Bool := decide (m = .run4) || decide (m = .run7) || decide (m = .run10)

/-- The majors of `run_configuration`. -/
def isRun : Major → Bool
  | .idle | .cmdReport | .cmdSetf | .cmdReset | .cmdLoad => false
  | _ => true

/-- `busy` is 1 exactly when `pc.major` is not `IDLE` (R25). -/
abbrev BusyMatchesPc (s : State) : Prop := s.busy = decide (s.pc.major ≠ .idle)

/-- `pc` is a pair of the table of R21. -/
abbrev PcInTable (s : State) : Prop := pcLegal s.pc = true

/-- `result` is one of codes 0 to 7, and 0 while a command is in progress (R25, R104, U18). -/
abbrev ResultLegal (s : State) : Prop := s.result.toNat ≤ 7 ∧ (s.busy = true → s.result = 0)

/-- While a command is in progress `cmd` holds its word, and its operand fits (R27, R210). -/
abbrev CommandHeld (s : State) : Prop :=
  s.pc.major ≠ .idle →
    (inProgress s).isSome = true ∧ inProgress s = decodeCmd s.cmd ∧ (inProgress s).all valueFits = true

/-- A command in progress was accepted with the window mapped, and it stays mapped (R45, U19). -/
abbrev MappedWhileBusy (s : State) : Prop := s.busy = true → s.winMapped = true

/-- The loader's registers (R23, R24): at most 4 bytes, zeros beyond them, `w` their packing, and at
least one byte where a word is about to be written. -/
abbrev LoaderRegisters (s : State) : Prop :=
  s.n.toNat ≤ 4 ∧
  (s.n.toNat ≤ 0 → s.blk.b0 = 0) ∧ (s.n.toNat ≤ 1 → s.blk.b1 = 0) ∧
  (s.n.toNat ≤ 2 → s.blk.b2 = 0) ∧ (s.n.toNat ≤ 3 → s.blk.b3 = 0) ∧
  s.w = pack4 s.blk ∧
  ((s.pc = ⟨.run9, .m1⟩ ∨ s.pc = ⟨.cmdLoad, .m1⟩) → s.n.toNat ≠ 0)

/-- `polls` never exceeds N, is below it in a wait, and is 0 in the baseline (R151, R260). -/
abbrev PollsBounded (s : State) : Prop :=
  (s.cfg.pollLimit = none → s.polls = 0) ∧
  ∀ limit ∈ s.cfg.pollLimit, s.polls ≤ limit ∧ (isWait s.pc.major = true → s.polls < limit)

/-- The events the block can produce: the six bus transactions of R106 at the addresses of R61, image
reads of at most 4 bytes, command words, and results 1 to 7. -/
def eventLegal (c : Config) : Event → Bool
  | .cmd _ => true
  | .res code => decide (1 ≤ code.toNat ∧ code.toNat ≤ 7)
  | .rd8 a _ => decide (a = statAddr c)
  | .rd16 a _ => decide (a = ctrlAddr c ∨ a = gpioAddr c)
  | .wr8 a _ => decide (a = statAddr c)
  | .wr16 a _ => decide (a = ctrlAddr c)
  | .wr32 a _ => decide (a = dataAddr c)
  | .img bytes => decide (bytes.length ≤ 4)
  | .imgErr => true

/-- Every event of the trace is one the block can produce. -/
abbrev TraceLegal (s : State) : Prop := ∀ e ∈ s.trace, eventLegal s.cfg e = true

/-- The invariant of the block. -/
abbrev State.Inv (s : State) : Prop :=
  BusyMatchesPc s ∧ PcInTable s ∧ ResultLegal s ∧ CommandHeld s ∧ MappedWhileBusy s ∧
    LoaderRegisters s ∧ PollsBounded s ∧ TraceLegal s

/-- The majors that hold a read-modify-write of CTRL (R165, R27): the seven of a run, and the setters. -/
def ctrlWriters : List Major := [.run2, .run3, .run5, .run6, .run8, .run11a, .run11b, .cmdSetf]

/-! ### Kinds of events -/

/-- A bus transaction or an image read: the "one external event" of R22. -/
def isAccess : Event → Bool
  | .cmd _ | .res _ => false
  | _ => true

/-- A write on the window port. -/
def isWrite : Event → Bool
  | .wr8 _ _ | .wr16 _ _ | .wr32 _ _ => true
  | _ => false

/-- The event is a read of the image port. -/
def isImageRead : Event → Bool
  | .img _ | .imgErr => true
  | _ => false

/-- The event is the acceptance of a command. -/
def isCmd : Event → Bool
  | .cmd _ => true
  | _ => false

/-- The events after the last acceptance of a command. -/
def sinceCommand (tr : List Event) : List Event :=
  (tr.reverse.takeWhile (fun e => !isCmd e)).reverse

/-- The writes since the last acceptance of a command, in order. -/
def commandWrites (tr : List Event) : List Event := (sinceCommand tr).filter isWrite

/-! ### The order of a run's writes (R166) -/

/-- The event is a write of CTRL that carries `val` in the field `f`. -/
def WritesField (c : Config) (p : CtrlField × Nat) (e : Event) : Prop :=
  ∃ v : Halfword, e = .wr16 (ctrlAddr c) v ∧ extractField (ctrlDesc p.1) v = BitVec.ofNat _ p.2

/-- The CTRL writes 1 to 5 of R166. -/
def writesBeforeLoad (c : Config) : List (CtrlField × Nat) :=
  [(.ctrlEn, 1), (.nconfigpull, 1), (.cdratio, c.cdratioConst.toNat), (.nconfigpull, 0), (.axicfgen, 1)]

/-- The CTRL writes 7 and 8 of R166. -/
def writesAfterLoad : List (CtrlField × Nat) := [(.axicfgen, 0), (.ctrlEn, 0)]

/-- How many of the writes before the load are done when a major step begins. -/
def doneBeforeLoad : Major → Nat
  | .run1 | .run2 => 0
  | .run3 => 1
  | .run4 | .run5 => 2
  | .run6 => 3
  | .run7 | .run8 => 4
  | _ => 5

/-- How many of the writes after the load are done when a major step begins. -/
def doneAfterLoad : Major → Nat
  | .run11b => 1
  | .run12 => 2
  | _ => 0

/-- The writes of a run that stands at the major step `m`: the first writes of R166 in order, then the
data words (none before step 9), then the last writes in order, and nothing else. -/
def RunWritesInOrder (c : Config) (m : Major) (tr : List Event) : Prop :=
  ∃ (before after : List Event) (words : List Word),
    commandWrites tr = before ++ words.map (fun v => Event.wr32 (dataAddr c) v) ++ after ∧
    List.Forall₂ (WritesField c) ((writesBeforeLoad c).take (doneBeforeLoad m)) before ∧
    List.Forall₂ (WritesField c) (writesAfterLoad.take (doneAfterLoad m)) after ∧
    (doneBeforeLoad m < 5 → words = [])

/-- CTRL when a run stands at the major step `m`, if it was `before` when the run began and nobody else
writes it: the fields of R154 to R163 set one after another (R168). -/
def ctrlDone (c : Config) (m : Major) (before : Halfword) : Halfword :=
  ((writesBeforeLoad c).take (doneBeforeLoad m) ++ writesAfterLoad.take (doneAfterLoad m)).foldl
    (fun v p => insertField (ctrlDesc p.1) v p.2) before

/-- CTRL is as the steps completed so far left it, and before a write half `ctl` holds it. -/
def CtrlAsDone (before : Halfword) (s : State) : Prop :=
  s.ctrlReg = ctrlDone s.cfg s.pc.major before ∧
  (s.pc.minor = .m1 → s.pc.major ≠ .run9 → s.pc.major ≠ .run1 → s.pc.major ≠ .run12 →
    s.ctl = s.ctrlReg)

/-! ### The words of an image (R197, R198) -/

/-- The words of an image under `ZeroPad`: one for each full block of 4 bytes, and one for a final block
of 1 to 3 bytes, padded with zeros. -/
def packImage : List Byte → List Word
  | [] => []
  | [a] => [pack4 ⟨a, 0, 0, 0⟩]
  | [a, b] => [pack4 ⟨a, b, 0, 0⟩]
  | [a, b, c] => [pack4 ⟨a, b, c, 0⟩]
  | a :: b :: c :: d :: rest => pack4 ⟨a, b, c, d⟩ :: packImage rest

/-- The words of the full blocks of an image: what is written under `Reject`. -/
def packFullBlocks : List Byte → List Word
  | a :: b :: c :: d :: rest => pack4 ⟨a, b, c, d⟩ :: packFullBlocks rest
  | _ => []

/-- The steps a load takes on `len` remaining bytes from a well-behaved source under `ZeroPad`: a fetch
and a write for each word, and one more fetch where the length is a multiple of 4 (R79, R305). -/
def loadSteps (len : Nat) : Nat := (len + 3) / 4 + (len / 4 + 1)

/-! ### Shapes shared by several statements -/

/-- The accepting step of a command at `(IDLE, 0)`, operand in range (R210): result 2 with the window
unmapped, else the first `pc` of the command. -/
def AcceptsInto (i : Instr) (word : Halfword) (entry : Major) : Prop :=
  ∀ s : State, s.pc = ⟨.idle, .m0⟩ →
    (s.winMapped = false →
      exec i s = .next { s with
        cmd := word, result := 2, busy := false, trace := s.trace ++ [.cmd word, .res 2] }) ∧
    (s.winMapped = true →
      exec i s = .next { s with
        cmd := word, result := 0, busy := true, pc := ⟨entry, .m0⟩, trace := s.trace ++ [.cmd word] })

/-- The image port answers the bytes `c` and its plan becomes `plan` (R78): the next bytes of the image,
at most 4 from a well-behaved source, at most `k` where the plan says so. -/
def PortDelivers (s : State) (c : List Byte) (plan : List ImgPlan) : Prop :=
  (s.imgPlan = [] ∧ plan = [] ∧ c = (s.image.drop s.imgPos).take 4) ∨
  (∃ k : Fin 5, s.imgPlan = .atMost k :: plan ∧ c = (s.image.drop s.imgPos).take k.val)

/-- `s` after a fetch that returned the bytes `c`, before `pc` moves (R190, R191). -/
def fetched (s : State) (c : List Byte) (plan : List ImgPlan) : State :=
  { s with
    imgPlan := plan
    imgPos := s.imgPos + c.length
    n := BitVec.ofNat 3 c.length
    blk := ⟨c.getD 0 0, c.getD 1 0, c.getD 2 0, c.getD 3 0⟩
    w := pack4 ⟨c.getD 0 0, c.getD 1 0, c.getD 2 0, c.getD 3 0⟩
    trace := s.trace ++ [.img c] }

/-- `s` after the command in it has ended with this result code (R222, R247). -/
def ended (code : BitVec 4) (s : State) : State :=
  { s with result := code, busy := false, pc := ⟨.idle, .m0⟩, trace := s.trace ++ [.res code] }

/-- The three waits: major, target mode, the step after (R165). -/
def waits : List (Major × BitVec 3 × Major) :=
  [(.run4, 1, .run5), (.run7, 2, .run8), (.run10, 4, .run11a)]

/-- No move of the schedule resets the block or shows a status whose mode is `t`. -/
def NeverShows (t : BitVec 3) (env : List (List EnvMove)) : Prop :=
  ∀ ms ∈ env, ∀ m ∈ ms, m ≠ .blockReset ∧ ∀ v : Byte, m = .showStat v → v.extractLsb' 0 3 ≠ t

/-- No move of the schedule resets the block or supplies another image. -/
def Undisturbed (env : List (List EnvMove)) : Prop :=
  ∀ ms ∈ env, ∀ m ∈ ms, m ≠ .blockReset ∧ ∀ bytes plan, m ≠ .supplyImage bytes plan

/-- Each write half of a read-modify-write comes right after the read it writes back (R290): at minor 1
of such a step the last event is the read of that location, and it returned what the working register
holds. -/
def ReadBeforeWrite (s : State) : Prop :=
  (s.pc.minor = .m1 ∧ s.pc.major ∈ [.run2, .run3, .run5, .run6, .run8, .run11a, .run11b, .cmdSetf] →
    s.trace.getLast? = some (.rd16 (s.cfg.csrBase + 0x004) s.ctl)) ∧
  (s.pc = ⟨.cmdReset, .m1⟩ → s.trace.getLast? = some (.rd8 (s.cfg.csrBase + 0x000) s.st))

end Sys2Proof.Machine
end

