-- ==== Sys2Proof/Certificates/Slice0/Obligations.lean ====
section
/-! DEFINITION. The statements about the model, for the provers. -/

open Sys2Proof Sys2Proof.Machine

/-! ### Encodings -/

/-- Decoding an encoded operation gives it back. R103 and R106 give the words; the operand words of the
micro-operations are the model's own (log 14). -/
def Obligations.DecodeOfEncodeIsTheOperation : Prop :=
  ∀ i : Instr, i.wellFormed = true → decode (encode i) = some i

/-- Encoding a decoded one gives the words back: no two encodings decode to one operation. -/
def Obligations.EncodeOfDecodeIsTheWords : Prop :=
  ∀ (e : Encoded) (i : Instr), decode e = some i → encode i = e ∧ i.wellFormed = true

/-- The opcode map of R103, by match and mask; the operand is the low byte. -/
def Obligations.CommandMapByMatchAndMask : Prop :=
  ∀ w : Halfword,
    (decodeCmd w = some .reportStatus ↔ w &&& 0xFFFF = 0x1000) ∧
    (decodeCmd w = some .runConfiguration ↔ w &&& 0xFFFF = 0x2000) ∧
    (decodeCmd w = some .loadBitstream ↔ w &&& 0xFFFF = 0x3000) ∧
    (decodeCmd w = some .reset ↔ w &&& 0xFFFF = 0x8000) ∧
    ∀ val : BitVec 8,
      (decodeCmd w = some (.setCtrlEn val) ↔ w &&& 0xFF00 = 0x4000 ∧ val = w.extractLsb' 0 8) ∧
      (decodeCmd w = some (.setNconfigpull val) ↔ w &&& 0xFF00 = 0x5000 ∧ val = w.extractLsb' 0 8) ∧
      (decodeCmd w = some (.setCdratio val) ↔ w &&& 0xFF00 = 0x6000 ∧ val = w.extractLsb' 0 8) ∧
      (decodeCmd w = some (.setAxicfgen val) ↔ w &&& 0xFF00 = 0x7000 ∧ val = w.extractLsb' 0 8)

/-- R107 and R220: which command words are illegal, and that an illegal word offered in IDLE is refused
with result 7, no access, `snap` unchanged, whether or not the window is mapped. Every other word is one
of the commands, so there is no hint, no custom space and no word that does nothing. -/
def Obligations.IllegalCommandWordsAreRefused : Prop :=
  ∀ w : Halfword,
    (decodeCmd w = none ↔
      w.extractLsb' 12 4 = (0 : BitVec 4) ∨ 9 ≤ (w.extractLsb' 12 4).toNat ∨
      w.extractLsb' 8 4 ≠ (0 : BitVec 4) ∨
      (w.extractLsb' 12 4 ∈ ([1, 2, 3, 8] : List (BitVec 4)) ∧ w.extractLsb' 0 8 ≠ (0 : BitVec 8))) ∧
    (∀ i, decodeCmd w = some i → (encode i).format = .cmd16) ∧
    ∀ (s : State) (rest : List Halfword), s.cfg.valid = true → s.env = [] → s.pc = ⟨.idle, .m0⟩ →
      s.cmdPort = w :: rest → decodeCmd w = none →
      step s = .next { s with
        cmdPort := rest, cmd := w, result := 7, busy := false, trace := s.trace ++ [.cmd w, .res 7] }

/-- Words written out from R103 and R106 decode to what they stand for. The two operand words after a tag,
here zeros, are the model's own (log 14): R106 gives the tags alone. -/
def Obligations.SampleWordsDecode : Prop :=
  decodeCmd 0b0001000000000000 = some .reportStatus ∧
  decodeCmd 0b0010000000000000 = some .runConfiguration ∧
  decodeCmd 0b0011000000000000 = some .loadBitstream ∧
  decodeCmd 0b0100000011111111 = some (.setCtrlEn 255) ∧
  decodeCmd 0b0110000000000011 = some (.setCdratio 3) ∧
  decodeCmd 0b1000000000000000 = some .reset ∧
  decodeBus 0b0000000000000000 0 0 = some .readStatus ∧
  decodeBus 0b0001000000000100 0 0 = some .readControl ∧
  decodeBus 0b0001100001000000 0 0 = some .readGpioInterruptStatus ∧
  decodeBus 0b1110000000000000 0 0 = some (.dataPortWrite 0)

/-! ### Fields and their assembly -/

/-- A field that was inserted reads back, and no bit outside the field's mask changes (R98, R97). -/
def Obligations.InsertedFieldReadsBack : Prop :=
  ∀ (f : CtrlField) (old : Halfword) (val : Nat), fitsField (ctrlDesc f) val = true →
    extractField (ctrlDesc f) (insertField (ctrlDesc f) old val) = BitVec.ofNat _ val ∧
    insertField (ctrlDesc f) old val &&& ~~~ fieldMask (ctrlDesc f) 16 =
      old &&& ~~~ fieldMask (ctrlDesc f) 16 ∧
    ∀ g : CtrlField, g ≠ f →
      extractField (ctrlDesc g) (insertField (ctrlDesc f) old val) = extractField (ctrlDesc g) old

/-- The table of R96: shift, width, mask and greatest value of every field, and which values fit
(R99). -/
def Obligations.FieldTable : Prop :=
  (∀ p ∈ ([(.ctrlEn, 0, 1, 0x0001, 1), (.nconfigpull, 2, 1, 0x0004, 1), (.cdratio, 6, 2, 0x00C0, 3),
      (.axicfgen, 8, 1, 0x0100, 1), (.cfgwdth, 9, 1, 0x0200, 1)] :
      List (CtrlField × Nat × Nat × Halfword × Nat)),
    ctrlDesc p.1 = ⟨p.2.1, p.2.2.1⟩ ∧ fieldMask (ctrlDesc p.1) 16 = p.2.2.2.1 ∧
    ∀ val, fitsField (ctrlDesc p.1) val = true ↔ val ≤ p.2.2.2.2) ∧
  (modeDesc = ⟨0, 3⟩ ∧ fieldMask modeDesc 8 = 0x07 ∧ ∀ val, fitsField modeDesc val = true ↔ val ≤ 7) ∧
  (mselDesc = ⟨3, 5⟩ ∧ fieldMask mselDesc 8 = 0xF8 ∧ ∀ val, fitsField mselDesc val = true ↔ val ≤ 31) ∧
  (configurationDoneDesc = ⟨1, 1⟩ ∧ fieldMask configurationDoneDesc 16 = 0x0002 ∧
    ∀ val, fitsField configurationDoneDesc val = true ↔ val ≤ 1) ∧
  ∀ (d : FieldDesc) (val : Nat), fitsField d val = true ↔ val ≤ 2 ^ d.width - 1

/-- R100: `pack4` puts the first byte lowest, equals the concatenation and the sum, and gives the
source's two examples. -/
def Obligations.Pack4IsTheConcatenation : Prop :=
  (∀ c0 c1 c2 c3 : Byte,
    pack4 ⟨c0, c1, c2, c3⟩ = c0.setWidth 32 ||| (c1.setWidth 32 <<< 8) ||| (c2.setWidth 32 <<< 16) |||
      (c3.setWidth 32 <<< 24) ∧
    pack4 ⟨c0, c1, c2, c3⟩ = c3 ++ c2 ++ c1 ++ c0 ∧
    (pack4 ⟨c0, c1, c2, c3⟩).toNat =
      c0.toNat + c1.toNat * 2 ^ 8 + c2.toNat * 2 ^ 16 + c3.toNat * 2 ^ 24) ∧
  pack4 ⟨0x01, 0x02, 0x03, 0x04⟩ = 0x04030201 ∧ pack4 ⟨0xAA, 0xBB, 0xCC, 0xDD⟩ = 0xDDCCBBAA

/-- R93 and R112: the names of the mode codes, and the codes of the names. -/
def Obligations.ModeCodesAndNames : Prop :=
  decodeMode 0 = .poweredOff ∧ decodeMode 1 = .reset ∧ decodeMode 2 = .configuring ∧
  decodeMode 3 = .initializing ∧ decodeMode 4 = .userMode ∧ decodeMode 5 = .undetermined ∧
  decodeMode 6 = .undetermined ∧ decodeMode 7 = .undetermined ∧
  encodeMode .undetermined = none ∧
  ∀ (m : BitVec 3) (name : Mode), encodeMode name = some m ↔ (decodeMode m = name ∧ name ≠ .undetermined)

/-- R105: where each field of a report stands in the packed snapshot. -/
def Obligations.PackedSnapshotLayout : Prop :=
  ∀ (st : Byte) (ctl gp : Halfword), let p := packSnap (assembleSnap st ctl gp)
    p.extractLsb' 0 5 = st.extractLsb' 3 5 ∧ p.extractLsb' 5 3 = st.extractLsb' 0 3 ∧
    p.extractLsb' 8 1 = ctl.extractLsb' 9 1 ∧ p.extractLsb' 9 2 = ctl.extractLsb' 6 2 ∧
    p.extractLsb' 11 1 = ctl.extractLsb' 8 1 ∧ p.extractLsb' 12 1 = ctl.extractLsb' 2 1 ∧
    p.extractLsb' 13 1 = gp.extractLsb' 1 1 ∧ p.extractLsb' 14 1 = ctl.extractLsb' 0 1 ∧
    p.extractLsb' 15 1 = (0 : BitVec 1)

/-! ### Micro-operations: the whole next state each gives -/

/-- `read_status`, `read_control`, `read_gpio_interrupt_status` (R121, R124, R125) in every state: one
read, into one working register, nothing else; their bus tags; and the fields of what each returns. -/
def Obligations.ReadMicroOperations : Prop :=
  (encode .readStatus).first = 0x0000 ∧ (encode .readControl).first = 0x1004 ∧
  (encode .readGpioInterruptStatus).first = 0x1840 ∧
  ∀ s : State,
    exec .readStatus s = .next { s with
      st := s.statReg, trace := s.trace ++ [.rd8 (s.cfg.csrBase + 0x000) s.statReg] } ∧
    exec .readControl s = .next { s with
      ctl := s.ctrlReg, trace := s.trace ++ [.rd16 (s.cfg.csrBase + 0x004) s.ctrlReg] } ∧
    exec .readGpioInterruptStatus s = .next { s with
      gp := s.gpioReg, trace := s.trace ++ [.rd16 (s.cfg.csrBase + 0x840) s.gpioReg] } ∧
    extractField modeDesc s.st = s.st.extractLsb' 0 3 ∧ extractField mselDesc s.st = s.st.extractLsb' 3 5 ∧
    extractField (ctrlDesc .ctrlEn) s.ctl = s.ctl.extractLsb' 0 1 ∧
    extractField (ctrlDesc .nconfigpull) s.ctl = s.ctl.extractLsb' 2 1 ∧
    extractField (ctrlDesc .cdratio) s.ctl = s.ctl.extractLsb' 6 2 ∧
    extractField (ctrlDesc .axicfgen) s.ctl = s.ctl.extractLsb' 8 1 ∧
    extractField (ctrlDesc .cfgwdth) s.ctl = s.ctl.extractLsb' 9 1 ∧
    extractField configurationDoneDesc s.gp = s.gp.extractLsb' 1 1

/-- `data_port_write` (R126) in every state: one 32-bit write of DATA, one more word in the FIFO. -/
def Obligations.DataPortWriteFeedsTheFifo : Prop :=
  ∀ (s : State) (word : Word),
    (encode (.dataPortWrite word)).first = 0xE000 ∧
    exec (.dataPortWrite word) s = .next { s with
      fifo := s.fifo ++ [word], trace := s.trace ++ [.wr32 (s.cfg.dataBase + 0x000) word] }

/-- `write_control_field` (R122): an out-of-range value is rejected before any access; else the read
half, then the write half, which is issued whatever CTRL holds and carries in every bit outside the
field what the read returned. That the minor part of `pc` says which half is done, whatever the major, is
the model's choice (log 13). First clause: `microOpAt`, which StepPerformsTheMicroOperation ties to the
steps of the block, never holds it on `cfgwdth`; NoCommandWritesCfgwdthOrAnotherMode says the same of the
block's writes. -/
def Obligations.WriteControlFieldHalves : Prop :=
  (∀ (s : State) (val : Nat), microOpAt s ≠ some (.writeControlField .cfgwdth val)) ∧
  ∀ p ∈ ([(.ctrlEn, 0x0001, 0, 1), (.nconfigpull, 0x0004, 2, 1), (.cdratio, 0x00C0, 6, 3),
      (.axicfgen, 0x0100, 8, 1), (.cfgwdth, 0x0200, 9, 1)] : List (CtrlField × Halfword × Nat × Nat)),
  ∀ (val : Nat) (s : State),
    (encode .readControl).first = 0x1004 ∧ (encode (.writeControlField p.1 val)).first = 0x9004 ∧
    (p.2.2.2 < val → exec (.writeControlField p.1 val) s = .next (ended 3 s)) ∧
    (val ≤ p.2.2.2 → s.pc.minor = .m0 →
      exec (.writeControlField p.1 val) s = .next { s with
        ctl := s.ctrlReg, trace := s.trace ++ [.rd16 (s.cfg.csrBase + 0x004) s.ctrlReg] }) ∧
    (val ≤ p.2.2.2 → s.pc.minor = .m1 →
      ∃ v : Halfword, v = (s.ctl &&& ~~~ p.2.1) ||| (BitVec.ofNat 16 val <<< p.2.2.1) ∧
        exec (.writeControlField p.1 val) s = .next { s with
          ctrlReg := v, trace := s.trace ++ [.wr16 (s.cfg.csrBase + 0x004) v] })

/-- `write_status_mode` (R123): more than 7 is rejected before any access; else the read half, then the
write of `(st & 0xF8) | val`. R123 (c) leaves open what STAT shows afterwards: here it is the free value
of log 6, whatever it is, and its counter goes on. The half is said by the minor part of `pc` (log 13).
First clause: `microOpAt`, which StepPerformsTheMicroOperation ties to the steps of the block, holds it
with code 1 alone; NoCommandWritesCfgwdthOrAnotherMode says the same of the block's writes. -/
def Obligations.WriteStatusModeHalves : Prop :=
  (∀ (s : State) (val : Nat), microOpAt s = some (.writeStatusMode val) → val = 1) ∧
  ∀ (val : Nat) (s : State),
    (encode .readStatus).first = 0x0000 ∧ (encode (.writeStatusMode val)).first = 0x8000 ∧
    (7 < val → exec (.writeStatusMode val) s = .next (ended 3 s)) ∧
    (val ≤ 7 → s.pc.minor = .m0 →
      exec (.writeStatusMode val) s = .next { s with
        st := s.statReg, trace := s.trace ++ [.rd8 (s.cfg.csrBase + 0x000) s.statReg] }) ∧
    (val ≤ 7 → s.pc.minor = .m1 →
      ∃ v : Byte, v = (s.st &&& 0xF8) ||| BitVec.ofNat 8 val ∧
        exec (.writeStatusMode val) s = .next { s with
          statReg := Config.statAfterWrite s.freeCtr v, freeCtr := s.freeCtr + 1
          trace := s.trace ++ [.wr8 (s.cfg.csrBase + 0x000) v] })

/-- R127 (a), with CTRL as storage and no other writer between the three transactions:
`write_control_field` followed by `read_control` yields the written value in the field and every other
bit as it was before. -/
def Obligations.WriteFieldThenReadControl : Prop :=
  ∀ (f : CtrlField) (val : Nat) (s s1 s2 s3 : State),
    fitsField (ctrlDesc f) val = true → s.pc.minor = .m0 →
    exec (.writeControlField f val) s = .next s1 →
    exec (.writeControlField f val) { s1 with pc := ⟨s1.pc.major, .m1⟩ } = .next s2 →
    exec .readControl s2 = .next s3 →
    extractField (ctrlDesc f) s3.ctl = BitVec.ofNat _ val ∧
    s3.ctl &&& ~~~ fieldMask (ctrlDesc f) 16 = s.ctrlReg &&& ~~~ fieldMask (ctrlDesc f) 16 ∧
    ∀ g : CtrlField, g ≠ f → extractField (ctrlDesc g) s3.ctl = extractField (ctrlDesc g) s.ctrlReg

/-! ### Commands -/

/-- R210, in the step that finds a word offered: illegal word, then unmapped window, then operand out of
range, then the command's first `pc`; and outside `(IDLE, 0)` no word is taken. -/
def Obligations.AcceptanceInTheOrderOfTheChecks : Prop :=
  (∀ (s : State) (w : Halfword) (rest : List Halfword),
    s.cfg.valid = true → s.env = [] → s.pc = ⟨.idle, .m0⟩ → s.cmdPort = w :: rest →
    let latched : State := { s with cmdPort := rest, cmd := w, busy := false, trace := s.trace ++ [.cmd w] }
    (decodeCmd w = none → step s = .next (ended 7 latched)) ∧
    ∀ i, decodeCmd w = some i →
      (s.winMapped = false → step s = .next (ended 2 latched)) ∧
      (s.winMapped = true → valueFits i = false → step s = .next (ended 3 latched)) ∧
      (s.winMapped = true → valueFits i = true →
        step s = .next { latched with
          result := 0, busy := true
          pc := ⟨match i with
            | .reportStatus => .cmdReport
            | .runConfiguration => .run1
            | .loadBitstream => .cmdLoad
            | .reset => .cmdReset
            | _ => .cmdSetf, .m0⟩ })) ∧
  ∀ s t : State, s.env = [] → s.pc.major ≠ .idle → step s = .next t →
    t.cmdPort = s.cmdPort ∧ t.cmd = s.cmd

/-- R221 for the meanings themselves: while another command is in progress the block has no step for a
command. The refusal's name is the model's (log 17). -/
def Obligations.CommandsAreRefusedWhileAnotherIsInProgress : Prop :=
  ∀ (s : State) (i : Instr), s.Inv → s.pc.major ≠ .idle → (encode i).format = .cmd16 →
    inProgress s ≠ some i → exec i s = .refused .notInProgress

/-- `report_status` (R211): encoding, acceptance, and its three steps; the last assembles the eight
fields of `snap` and ends with `Ok`. Nothing is written to the device. -/
def Obligations.ReportStatusSteps : Prop :=
  cmdWord .reportStatus = 0x1000 ∧ AcceptsInto .reportStatus 0x1000 .cmdReport ∧
  ∀ s : State,
    (s.pc = ⟨.cmdReport, .m0⟩ → exec .reportStatus s = .next { s with
      st := s.statReg, pc := ⟨.cmdReport, .m1⟩
      trace := s.trace ++ [.rd8 (s.cfg.csrBase + 0x000) s.statReg] }) ∧
    (s.pc = ⟨.cmdReport, .m1⟩ → exec .reportStatus s = .next { s with
      ctl := s.ctrlReg, pc := ⟨.cmdReport, .m2⟩
      trace := s.trace ++ [.rd16 (s.cfg.csrBase + 0x004) s.ctrlReg] }) ∧
    (s.pc = ⟨.cmdReport, .m2⟩ → exec .reportStatus s = .next (ended 1 { s with
      gp := s.gpioReg
      snap := ⟨s.st.extractLsb' 3 5, s.st.extractLsb' 0 3, s.ctl.extractLsb' 9 1,
        s.ctl.extractLsb' 6 2, s.ctl.extractLsb' 8 1, s.ctl.extractLsb' 2 1,
        s.gpioReg.extractLsb' 1 1, s.ctl.extractLsb' 0 1⟩
      trace := s.trace ++ [.rd16 (s.cfg.csrBase + 0x840) s.gpioReg] }))

/-- The source's property S8 over the whole command: four steps from IDLE, no write, no register of the
device changed, and `snap` shows what the three locations held. -/
def Obligations.ReportStatusNeverMutates : Prop :=
  ∀ (s : State) (rest : List Halfword), s.cfg.valid = true → s.env = [] → s.pc = ⟨.idle, .m0⟩ →
    s.winMapped = true → s.cmdPort = 0x1000 :: rest →
    ∃ t, runSteps 4 s = .next t ∧ t.pc = ⟨.idle, .m0⟩ ∧ t.busy = false ∧ t.result = 1 ∧
      t.trace.filter isWrite = s.trace.filter isWrite ∧
      t.statReg = s.statReg ∧ t.ctrlReg = s.ctrlReg ∧ t.gpioReg = s.gpioReg ∧ t.fifo = s.fifo ∧
      t.snap = assembleSnap s.statReg s.ctrlReg s.gpioReg

/-- The four setters (R215 to R218): encoding, acceptance, and the two steps. The row gives the field's
mask, its position, its greatest value and the command's opcode word. -/
def Obligations.SetterSteps : Prop :=
  ∀ (val : BitVec 8),
  ∀ p ∈ ([(.setCtrlEn val, 0x0001, 0, 1, 0x4000), (.setNconfigpull val, 0x0004, 2, 1, 0x5000),
      (.setCdratio val, 0x00C0, 6, 3, 0x6000), (.setAxicfgen val, 0x0100, 8, 1, 0x7000)] :
      List (Instr × Halfword × Nat × Nat × Halfword)),
    let word : Halfword := p.2.2.2.2 ||| val.setWidth 16
    cmdWord p.1 = word ∧
    (val.toNat ≤ p.2.2.2.1 → AcceptsInto p.1 word .cmdSetf) ∧
    (p.2.2.2.1 < val.toNat → ∀ s : State, s.pc = ⟨.idle, .m0⟩ →
      exec p.1 s = .next (ended (if s.winMapped then 3 else 2)
        { s with cmd := word, trace := s.trace ++ [.cmd word] })) ∧
    (val.toNat ≤ p.2.2.2.1 → ∀ s : State, s.cmd = word →
      (s.pc = ⟨.cmdSetf, .m0⟩ → exec p.1 s = .next { s with
        ctl := s.ctrlReg, pc := ⟨.cmdSetf, .m1⟩
        trace := s.trace ++ [.rd16 (s.cfg.csrBase + 0x004) s.ctrlReg] }) ∧
      (s.pc = ⟨.cmdSetf, .m1⟩ →
        ∃ v : Halfword, v = (s.ctl &&& ~~~ p.2.1) ||| (val.setWidth 16 <<< p.2.2.1) ∧
          exec p.1 s = .next (ended 1 { s with
            ctrlReg := v, trace := s.trace ++ [.wr16 (s.cfg.csrBase + 0x004) v] })))

/-- A whole setter command, three steps from IDLE with no move of the environment between: CTRL has the
value in the field and every other bit as before, and the result is `Ok`. -/
def Obligations.SetterChangesOneField : Prop :=
  ∀ (val : BitVec 8),
  ∀ p ∈ ([(0x4000, .ctrlEn), (0x5000, .nconfigpull), (0x6000, .cdratio), (0x7000, .axicfgen)] :
      List (Halfword × CtrlField)),
  ∀ (s : State) (rest : List Halfword), s.cfg.valid = true → s.env = [] → s.pc = ⟨.idle, .m0⟩ →
    s.winMapped = true → s.cmdPort = (p.1 ||| val.setWidth 16) :: rest →
    fitsField (ctrlDesc p.2) val.toNat = true →
    ∃ t, runSteps 3 s = .next t ∧ t.pc = ⟨.idle, .m0⟩ ∧ t.busy = false ∧ t.result = 1 ∧
      extractField (ctrlDesc p.2) t.ctrlReg = BitVec.ofNat _ val.toNat ∧
      t.ctrlReg &&& ~~~ fieldMask (ctrlDesc p.2) 16 = s.ctrlReg &&& ~~~ fieldMask (ctrlDesc p.2) 16 ∧
      t.statReg = s.statReg ∧ t.gpioReg = s.gpioReg ∧ t.fifo = s.fifo ∧ t.snap = s.snap ∧
      commandWrites t.trace = [.wr16 (s.cfg.csrBase + 0x004) t.ctrlReg]

/-- `reset` (R219): encoding, acceptance, and its two steps; the byte written is `(st & 0xF8) | 1`. What
STAT shows afterwards is not in the source: it is the free value of log 6, and its counter goes on. -/
def Obligations.ResetCommandSteps : Prop :=
  cmdWord .reset = 0x8000 ∧ AcceptsInto .reset 0x8000 .cmdReset ∧
  ∀ s : State,
    (s.pc = ⟨.cmdReset, .m0⟩ → exec .reset s = .next { s with
      st := s.statReg, pc := ⟨.cmdReset, .m1⟩
      trace := s.trace ++ [.rd8 (s.cfg.csrBase + 0x000) s.statReg] }) ∧
    (s.pc = ⟨.cmdReset, .m1⟩ →
      ∃ v : Byte, v = (s.st &&& 0xF8) ||| 0x01 ∧
        exec .reset s = .next (ended 1 { s with
          statReg := Config.statAfterWrite s.freeCtr v, freeCtr := s.freeCtr + 1
          trace := s.trace ++ [.wr8 (s.cfg.csrBase + 0x000) v] }))

/-- `load_bitstream` (R214): encoding and acceptance; and the loader's fetch step, in `load_bitstream` and
in run step 9 (R190, R191, R193 to R196, R165). That the source's answers stand in a plan, which each read
shortens, and that a failing read leaves the position where it was, are the model's choices (log 10). -/
def Obligations.LoaderFetchStep : Prop :=
  cmdWord .loadBitstream = 0x3000 ∧ AcceptsInto .loadBitstream 0x3000 .cmdLoad ∧
  ∀ p ∈ ([(.loadBitstream, .cmdLoad, ended 1), (.runConfiguration, .run9,
      fun u => { u with pc := ⟨.run10, .m0⟩, polls := 0 })] : List (Instr × Major × (State → State))),
  ∀ s : State, s.pc = ⟨p.2.1, .m0⟩ →
    (∀ (c : List Byte) (plan : List ImgPlan), PortDelivers s c plan →
      (c.length = 4 → exec p.1 s = .next { fetched s c plan with pc := ⟨p.2.1, .m1⟩ }) ∧
      (c.length = 0 → exec p.1 s = .next (p.2.2 (fetched s c plan))) ∧
      (c.length ≠ 0 → c.length ≠ 4 → s.cfg.shortBlockPolicy = .zeroPad →
        exec p.1 s = .next { fetched s c plan with pc := ⟨p.2.1, .m1⟩ }) ∧
      (c.length ≠ 0 → c.length ≠ 4 → s.cfg.shortBlockPolicy = .reject →
        exec p.1 s = .next (ended 5 (fetched s c plan)))) ∧
    (∀ rest : List ImgPlan, s.imgPlan = .fail :: rest →
      exec p.1 s = .next (ended 4 { s with imgPlan := rest, trace := s.trace ++ [.imgErr] }))

/-- The loader's write step (R190, R165): the word in `w` goes to DATA; after a full block the next
fetch, after a short one the end of the load. -/
def Obligations.LoaderWriteStep : Prop :=
  ∀ p ∈ ([(.loadBitstream, .cmdLoad, ended 1), (.runConfiguration, .run9,
      fun u => { u with pc := ⟨.run10, .m0⟩, polls := 0 })] : List (Instr × Major × (State → State))),
  ∀ s : State, s.pc = ⟨p.2.1, .m1⟩ →
    let written : State :=
      { s with fifo := s.fifo ++ [s.w], trace := s.trace ++ [.wr32 (s.cfg.dataBase + 0x000) s.w] }
    (s.n = 4 → exec p.1 s = .next { written with pc := ⟨p.2.1, .m0⟩ }) ∧
    (s.n ≠ 4 → exec p.1 s = .next (p.2.2 written))

/-- R197 and R198, over a whole `load_bitstream` from its first fetch, for an image of any length from a
well-behaved source and a schedule without moves: exactly the packed words, in image order, no word
more, in `ceil(L/4) + floor(L/4) + 1` steps, within the bound of R305; under `Reject` only the full blocks
and then `MalformedImage` where the length is not a multiple of 4. No other write is made, and the image
is read `floor(L/4) + 1` times in every case (R79). -/
def Obligations.LoadWritesThePackedImage : Prop :=
  ∀ s : State, s.cfg.valid = true → s.env = [] → s.pc = ⟨.cmdLoad, .m0⟩ → s.imgPlan = [] →
    let bytes := s.image.drop s.imgPos
    let writes (ws : List Word) := ws.map (fun v => Event.wr32 (s.cfg.dataBase + 0x000) v)
    (s.cfg.shortBlockPolicy = .zeroPad ∨ bytes.length % 4 = 0 →
      ∃ t, runSteps (loadSteps bytes.length) s = .next t ∧ t.pc = ⟨.idle, .m0⟩ ∧ t.busy = false ∧
        t.result = 1 ∧ t.fifo = s.fifo ++ packImage bytes ∧
        t.trace.filter isWrite = s.trace.filter isWrite ++ writes (packImage bytes) ∧
        t.trace.countP isImageRead = s.trace.countP isImageRead + (bytes.length / 4 + 1)) ∧
    (s.cfg.shortBlockPolicy = .reject → bytes.length % 4 ≠ 0 →
      ∃ t, runSteps (2 * (bytes.length / 4) + 1) s = .next t ∧ t.pc = ⟨.idle, .m0⟩ ∧ t.busy = false ∧
        t.result = 5 ∧ t.fifo = s.fifo ++ packFullBlocks bytes ∧
        t.trace.filter isWrite = s.trace.filter isWrite ++ writes (packFullBlocks bytes) ∧
        t.trace.countP isImageRead = s.trace.countP isImageRead + (bytes.length / 4 + 1))

/-- A load touches only the image port and DATA (R199, R214): the one write it can make is that of the word
in `w` at the address of DATA. -/
def Obligations.LoadTouchesOnlyImageAndData : Prop :=
  ∀ s t : State, s.pc.major = .cmdLoad ∨ s.pc.major = .run9 → blockStep s = .next t →
    t.statReg = s.statReg ∧ t.ctrlReg = s.ctrlReg ∧ t.gpioReg = s.gpioReg ∧
    t.st = s.st ∧ t.ctl = s.ctl ∧ t.gp = s.gp ∧ t.snap = s.snap ∧
    ∃ es, t.trace = s.trace ++ es ∧
      ∀ e ∈ es, (∃ c, e = .img c) ∨ e = .imgErr ∨ e = .wr32 (dataAddr s.cfg) s.w ∨ e = .res t.result

/-! ### The run -/

/-- `run_configuration` (R213): encoding and acceptance; its first and its last three steps are the
report of R211 (R153, R164). The mode read in step 12 does not change the result. -/
def Obligations.RunReportsFirstAndLast : Prop :=
  cmdWord .runConfiguration = 0x2000 ∧ AcceptsInto .runConfiguration 0x2000 .run1 ∧
  ∀ p ∈ ([(.run1, fun u => { u with pc := ⟨.run2, .m0⟩ }), (.run12, ended 1)] :
      List (Major × (State → State))),
  ∀ s : State,
    (s.pc = ⟨p.1, .m0⟩ → exec .runConfiguration s = .next { s with
      st := s.statReg, pc := ⟨p.1, .m1⟩
      trace := s.trace ++ [.rd8 (s.cfg.csrBase + 0x000) s.statReg] }) ∧
    (s.pc = ⟨p.1, .m1⟩ → exec .runConfiguration s = .next { s with
      ctl := s.ctrlReg, pc := ⟨p.1, .m2⟩
      trace := s.trace ++ [.rd16 (s.cfg.csrBase + 0x004) s.ctrlReg] }) ∧
    (s.pc = ⟨p.1, .m2⟩ → exec .runConfiguration s = .next (p.2 { s with
      gp := s.gpioReg
      snap := ⟨s.st.extractLsb' 3 5, s.st.extractLsb' 0 3, s.ctl.extractLsb' 9 1,
        s.ctl.extractLsb' 6 2, s.ctl.extractLsb' 8 1, s.ctl.extractLsb' 2 1,
        s.gpioReg.extractLsb' 1 1, s.ctl.extractLsb' 0 1⟩
      trace := s.trace ++ [.rd16 (s.cfg.csrBase + 0x840) s.gpioReg] }))

/-- The seven read-modify-writes of the run (R154, R155, R157, R158, R160, R163, R165). The row gives
the major step, the field's mask and position, the value, and the step after. A wait that follows
begins with `polls` 0. -/
def Obligations.RunFieldSteps : Prop :=
  ∀ s : State,
  ∀ p ∈ ([(.run2, 0x0001, 0, 1, .run3), (.run3, 0x0004, 2, 1, .run4),
      (.run5, 0x00C0, 6, s.cfg.cdratioConst.setWidth 16, .run6), (.run6, 0x0004, 2, 0, .run7),
      (.run8, 0x0100, 8, 1, .run9), (.run11a, 0x0100, 8, 0, .run11b), (.run11b, 0x0001, 0, 0, .run12)] :
      List (Major × Halfword × Nat × Halfword × Major)),
    (s.pc = ⟨p.1, .m0⟩ → exec .runConfiguration s = .next { s with
      ctl := s.ctrlReg, pc := ⟨p.1, .m1⟩
      trace := s.trace ++ [.rd16 (s.cfg.csrBase + 0x004) s.ctrlReg] }) ∧
    (s.pc = ⟨p.1, .m1⟩ →
      ∃ v : Halfword, v = (s.ctl &&& ~~~ p.2.1) ||| (p.2.2.2.1 <<< p.2.2.1) ∧
        exec .runConfiguration s = .next { s with
          ctrlReg := v, pc := ⟨p.2.2.2.2, .m0⟩
          polls := if isWait p.2.2.2.2 then 0 else s.polls
          trace := s.trace ++ [.wr16 (s.cfg.csrBase + 0x004) v] })

/-- The waits of the baseline (R150, R156, R159, R162): one read a step; the wait ends at the first read
whose three mode bits are the target, and any other code, `Undetermined` among them, leaves `pc`. -/
def Obligations.BaselineWaitSteps : Prop :=
  ∀ p ∈ waits, ∀ s : State, s.cfg.pollLimit = none → s.pc = ⟨p.1, .m0⟩ →
    (s.statReg.extractLsb' 0 3 = p.2.1 → exec .runConfiguration s = .next { s with
      st := s.statReg, pc := ⟨p.2.2, .m0⟩
      trace := s.trace ++ [.rd8 (s.cfg.csrBase + 0x000) s.statReg] }) ∧
    (s.statReg.extractLsb' 0 3 ≠ p.2.1 → exec .runConfiguration s = .next { s with
      st := s.statReg, trace := s.trace ++ [.rd8 (s.cfg.csrBase + 0x000) s.statReg] })

/-- The waits of the hardened variant (R151): the read is counted; success on the N-th read is a
success; the N-th unsuccessful read ends the command with `ConfigurationTimedOut`. -/
def Obligations.HardenedWaitSteps : Prop :=
  ∀ p ∈ waits, ∀ (s : State) (limit : Nat), s.cfg.pollLimit = some limit → s.pc = ⟨p.1, .m0⟩ →
    let polled : State := { s with
      st := s.statReg, polls := s.polls + 1
      trace := s.trace ++ [.rd8 (s.cfg.csrBase + 0x000) s.statReg] }
    (s.statReg.extractLsb' 0 3 = p.2.1 →
      exec .runConfiguration s = .next { polled with pc := ⟨p.2.2, .m0⟩ }) ∧
    (s.statReg.extractLsb' 0 3 ≠ p.2.1 → s.polls + 1 = limit →
      exec .runConfiguration s = .next (ended 6 polled)) ∧
    (s.statReg.extractLsb' 0 3 ≠ p.2.1 → s.polls + 1 ≠ limit →
      exec .runConfiguration s = .next polled)

/-- R167: a step leaves a baseline wait only by a read that shows the target, and then it goes to the
step after. -/
def Obligations.BaselineWaitEndsOnlyOnTheTarget : Prop :=
  ∀ p ∈ waits, ∀ s t : State, s.cfg.pollLimit = none → s.pc = ⟨p.1, .m0⟩ → blockStep s = .next t →
    t.pc ≠ s.pc →
    t.pc = ⟨p.2.2, .m0⟩ ∧ t.st.extractLsb' 0 3 = p.2.1 ∧
    t.trace.getLast? = some (.rd8 (s.cfg.csrBase + 0x000) t.st)

/-- The hang (R167, R255): in the baseline, while the device never shows the target and the block is not
reset, the wait goes on for any number of steps, `busy` stays, `result` is never written, and the trace
grows by status reads alone. -/
def Obligations.BaselineWaitHangs : Prop :=
  ∀ p ∈ waits, ∀ s : State, s.cfg.valid = true → s.cfg.pollLimit = none → s.pc = ⟨p.1, .m0⟩ →
    s.statReg.extractLsb' 0 3 ≠ p.2.1 → NeverShows p.2.1 s.env →
    ∀ k : Nat, ∃ (t : State) (vs : List Byte), runSteps k s = .next t ∧ t.pc = s.pc ∧
      t.busy = s.busy ∧ t.result = s.result ∧ vs.length = k ∧
      t.trace = s.trace ++ vs.map (fun v => Event.rd8 (s.cfg.csrBase + 0x000) v)

/-- The source's property S6 (R151): in the hardened variant, while the device never shows the target, a
wait that begins with `polls` 0 ends after exactly N reads with `ConfigurationTimedOut`, no access after
them, no rollback of the FIFO and no final report. -/
def Obligations.HardenedWaitTimesOut : Prop :=
  ∀ p ∈ waits, ∀ (s : State) (limit : Nat), s.cfg.valid = true → s.cfg.pollLimit = some limit →
    s.pc = ⟨p.1, .m0⟩ → s.polls = 0 →
    s.statReg.extractLsb' 0 3 ≠ p.2.1 → NeverShows p.2.1 s.env →
    ∃ (t : State) (vs : List Byte), runSteps limit s = .next t ∧ t.pc = ⟨.idle, .m0⟩ ∧
      t.busy = false ∧ t.result = 6 ∧ t.polls = limit ∧ t.snap = s.snap ∧ t.fifo = s.fifo ∧
      vs.length = limit ∧
      t.trace = s.trace ++ vs.map (fun v => Event.rd8 (s.cfg.csrBase + 0x000) v) ++ [.res 6]

/-- R166: the writes of a run come in the order of R166, whatever the device answers. From a state at a
major step of the run whose writes so far are the first ones in order, every step of the machine, with
any moves of the environment, gives such a state or one that is no longer in the run; a run begins with
no write; and the step that ends a run with `Ok` has all of them behind it. -/
def Obligations.RunWritesComeInOrder : Prop :=
  (∀ s t : State, s.Inv → isRun s.pc.major = true → RunWritesInOrder s.cfg s.pc.major s.trace →
    step s = .next t → isRun t.pc.major = true →
    RunWritesInOrder t.cfg t.pc.major t.trace) ∧
  (∀ s t : State, blockStep s = .next t → s.pc.major = .idle → isRun t.pc.major = true →
    RunWritesInOrder t.cfg t.pc.major t.trace) ∧
  (∀ s t : State, s.Inv → isRun s.pc.major = true → RunWritesInOrder s.cfg s.pc.major s.trace →
    blockStep s = .next t → t.busy = false → t.result = 1 → RunWritesInOrder t.cfg .run12 t.trace)

/-- R168 and R302, with CTRL as storage and no other writer: at every major step of a run CTRL is what it
was before the run with the fields of the steps completed so far set in order; an error exit leaves it
so, and a run that ends with `Ok` has set all of them. The table of R168 says what that is at each exit. -/
def Obligations.RunLeavesTheFieldsOfItsSteps : Prop :=
  (∀ (before : Halfword) (s t : State), s.Inv → isRun s.pc.major = true → CtrlAsDone before s →
    blockStep s = .next t →
    (isRun t.pc.major = true → CtrlAsDone before t) ∧
    (t.busy = false → t.result ≠ 1 → t.ctrlReg = ctrlDone s.cfg s.pc.major before) ∧
    (t.busy = false → t.result = 1 → t.ctrlReg = ctrlDone s.cfg .run12 before)) ∧
  ∀ (c : Config) (before : Halfword),
  ∀ p ∈ ([(.run4, 1, before.extractLsb' 6 2, before.extractLsb' 8 1), (.run7, 0, c.cdratioConst,
      before.extractLsb' 8 1), (.run9, 0, c.cdratioConst, 1), (.run10, 0, c.cdratioConst, 1)] :
      List (Major × BitVec 1 × BitVec 2 × BitVec 1)),
    (ctrlDone c p.1 before).extractLsb' 0 1 = (1 : BitVec 1) ∧
    (ctrlDone c p.1 before).extractLsb' 2 1 = p.2.1 ∧
    (ctrlDone c p.1 before).extractLsb' 6 2 = p.2.2.1 ∧
    (ctrlDone c p.1 before).extractLsb' 8 1 = p.2.2.2 ∧
    ctrlDone c p.1 before &&& 0xFE3A = before &&& 0xFE3A

/-- R305 for the hardened variant: from run step 1, whatever the device shows and whenever, a run over an
image of L remaining bytes from a well-behaved source ends, within the bound of R305. -/
def Obligations.HardenedRunEnds : Prop :=
  ∀ (s : State) (limit : Nat), s.cfg.valid = true → s.cfg.pollLimit = some limit →
    s.pc = ⟨.run1, .m0⟩ → s.imgPlan = [] → Undisturbed s.env →
    let len := (s.image.drop s.imgPos).length
    ∃ (k : Nat) (t : State), k ≤ 23 + (len + 3) / 4 + len / 4 + 1 + 3 * (limit - 1) ∧
      runSteps k s = .next t ∧ t.pc = ⟨.idle, .m0⟩ ∧ t.busy = false ∧
      t.result ∈ ([1, 5, 6] : List (BitVec 4))

/-- R170 and the source's property S5: a whole run in the baseline under `ZeroPad` against a device that
keeps CTRL and shows each awaited mode at the first read of the wait. It ends with `Ok` after the
accepting step and the steps R170 counts, every step one event (and the last also RES); the eight
groups of writes are those of R166 with the values the fields demand. -/
def Obligations.RunAgainstResponsiveDevice : Prop :=
  ∀ (s : State) (rest : List Halfword) (a1 a2 a4 : Byte),
    s.cfg.valid = true → s.cfg.pollLimit = none → s.cfg.shortBlockPolicy = .zeroPad →
    s.pc = ⟨.idle, .m0⟩ → s.winMapped = true → s.cmdPort = 0x2000 :: rest → s.imgPlan = [] →
    a1.extractLsb' 0 3 = (1 : BitVec 3) → a2.extractLsb' 0 3 = (2 : BitVec 3) →
    a4.extractLsb' 0 3 = (4 : BitVec 3) →
    let bytes := s.image.drop s.imgPos
    let len := bytes.length
    s.env = List.replicate 8 [] ++ [[.showStat a1]] ++ List.replicate 4 [] ++ [[.showStat a2]] ++
      List.replicate (2 + loadSteps len) [] ++ [[.showStat a4]] →
    let c1 := insertField (ctrlDesc .ctrlEn) s.ctrlReg 1
    let c2 := insertField (ctrlDesc .nconfigpull) c1 1
    let c3 := insertField (ctrlDesc .cdratio) c2 s.cfg.cdratioConst.toNat
    let c4 := insertField (ctrlDesc .nconfigpull) c3 0
    let c5 := insertField (ctrlDesc .axicfgen) c4 1
    let c6 := insertField (ctrlDesc .axicfgen) c5 0
    let c7 := insertField (ctrlDesc .ctrlEn) c6 0
    ∃ t, runSteps (1 + (23 + (len + 3) / 4) + (len / 4 + 1)) s = .next t ∧
      t.pc = ⟨.idle, .m0⟩ ∧ t.busy = false ∧ t.result = 1 ∧ t.ctrlReg = c7 ∧
      t.fifo = s.fifo ++ packImage bytes ∧
      t.trace.length = s.trace.length + (1 + (23 + (len + 3) / 4) + (len / 4 + 1)) + 1 ∧
      commandWrites t.trace =
        [c1, c2, c3, c4, c5].map (fun v => Event.wr16 (s.cfg.csrBase + 0x004) v) ++
        (packImage bytes).map (fun v => Event.wr32 (s.cfg.dataBase + 0x000) v) ++
        [c6, c7].map (fun v => Event.wr16 (s.cfg.csrBase + 0x004) v)

/-! ### Steps of the machine -/

/-- A step runs the decoded operation. After the environment's moves of the gap: in IDLE with a word
offered that decodes, the meaning of that command, the word taken off the port; busy, the meaning of the
command in progress; in IDLE with no word, nothing. Parameters outside their preconditions are refused
(U9, log 3). -/
def Obligations.StepRunsTheDecodedOperation : Prop :=
  ∀ s : State,
    (s.cfg.valid = false → step s = .refused .badConfiguration) ∧
    (s.cfg.valid = true →
      (∀ w rest i, (applyEnv s).pc = ⟨.idle, .m0⟩ → (applyEnv s).cmdPort = w :: rest →
        decodeCmd w = some i → step s = exec i { applyEnv s with cmdPort := rest }) ∧
      (∀ i, (applyEnv s).pc.major ≠ .idle → inProgress (applyEnv s) = some i →
        step s = exec i (applyEnv s)) ∧
      ((applyEnv s).pc = ⟨.idle, .m0⟩ → (applyEnv s).cmdPort = [] → step s = .next (applyEnv s)))

/-- Every bus transaction of a command is one of the six micro-operations (R120, R106): where the
sequence performs the micro-operation `m`, the step of the block does what `exec m` does, and beyond it
changes only the step register, the outputs, the poll count and the trace, by at most the event RES.
Conversely, where it performs none the step makes no bus transaction: in IDLE no access at all, outside
IDLE one read of the image port and no other. -/
def Obligations.StepPerformsTheMicroOperation : Prop :=
  (∀ (s : State) (m : Instr), s.Inv → microOpAt s = some m →
    ∃ u t : State, exec m s = .next u ∧ blockStep s = .next t ∧
      t = { u with
        pc := t.pc, busy := t.busy, result := t.result, snap := t.snap, polls := t.polls
        trace := t.trace } ∧
      (t.trace = u.trace ∨ t.trace = u.trace ++ [.res t.result])) ∧
  ∀ s t : State, s.Inv → microOpAt s = none → blockStep s = .next t →
    ∃ es, t.trace = s.trace ++ es ∧ (s.pc.major = .idle → ∀ e ∈ es, isAccess e = false) ∧
      (s.pc.major ≠ .idle → ∃ e, isImageRead e = true ∧ (es = [e] ∨ es = [e, .res t.result]))

/-- The invariant holds after reset. -/
def Obligations.ResetMeetsTheInvariant : Prop := State.reset.Inv

/-- Every step of the machine keeps the invariant, whatever the environment does. -/
def Obligations.StepKeepsTheInvariant : Prop :=
  ∀ s t : State, s.Inv → step s = .next t → t.Inv

/-- From a state that meets the invariant, with legal parameters, the machine never faults and is never
refused: it steps for ever. -/
def Obligations.InvariantStatesAlwaysStep : Prop :=
  ∀ s : State, s.Inv → s.cfg.valid = true → ∀ k : Nat, ∃ t, runSteps k s = .next t ∧ t.Inv

/-- R22: every step of the block performs exactly one external event, with RES beside it where the step
ends the command; in IDLE it is the acceptance, alone or with the RES of a refusal, or nothing while no
word is offered. -/
def Obligations.OneEventPerStep : Prop :=
  ∀ s t : State, s.Inv → blockStep s = .next t →
    ∃ es, t.trace = s.trace ++ es ∧
      (s.pc.major ≠ .idle → ∃ e, isAccess e = true ∧ (es = [e] ∨ es = [e, .res t.result])) ∧
      (s.pc.major = .idle → (s.cmdPort = [] ∧ es = []) ∨
        ∃ w, s.cmdPort.head? = some w ∧ (es = [.cmd w] ∨ es = [.cmd w, .res t.result]))

/-- R222: a step that ends a command sets `result`, clears `busy`, returns `pc` to `(IDLE,0)` and emits
`RES` with that result; a step that does not end it leaves `result` and emits none; with no command
in progress and no word offered `result` keeps its value; and the step that finds a word offered sets it,
to 0 where the command is accepted and is in progress, to the refusal's code where it is refused (R25,
R210). -/
def Obligations.CompletionReportsTheResult : Prop :=
  ∀ s t : State, s.Inv → blockStep s = .next t →
    (s.busy = true → t.busy = false →
      t.pc = ⟨.idle, .m0⟩ ∧ t.result ≠ 0 ∧ t.trace.getLast? = some (.res t.result)) ∧
    (s.busy = true → t.busy = true →
      t.result = s.result ∧ ∃ e, isAccess e = true ∧ t.trace = s.trace ++ [e]) ∧
    (s.busy = false → s.cmdPort = [] → t.result = s.result) ∧
    (s.busy = false → ∀ w rest, s.cmdPort = w :: rest →
      (t.busy = true ∧ t.result = 0 ∧ t.trace = s.trace ++ [.cmd w]) ∨
      (t.busy = false ∧ t.pc = ⟨.idle, .m0⟩ ∧ t.result ∈ ([2, 3, 7] : List (BitVec 4)) ∧
        t.trace = s.trace ++ [.cmd w, .res t.result]))

/-- R266: which result can come from which command, at acceptance and once it is in progress. -/
def Obligations.ResultsByCommand : Prop :=
  (∀ (s t : State) (w : Halfword) (rest : List Halfword) (i : Instr), s.pc = ⟨.idle, .m0⟩ →
    s.cmdPort = w :: rest → blockStep s = .next t → t.busy = false →
    (decodeCmd w = none → t.result = 7) ∧
    (decodeCmd w = some i →
      (t.result = 2 ∧ s.winMapped = false) ∨
      (t.result = 3 ∧ ∃ val : BitVec 8,
        ((i = .setCtrlEn val ∨ i = .setNconfigpull val ∨ i = .setAxicfgen val) ∧ 1 < val.toNat) ∨
        (i = .setCdratio val ∧ 3 < val.toNat)))) ∧
  ∀ (s t : State) (i : Instr), s.Inv → inProgress s = some i → blockStep s = .next t → t.busy = false →
    t.result = 1 ∨
    (t.result = 4 ∧ (i = .runConfiguration ∨ i = .loadBitstream)) ∨
    (t.result = 5 ∧ (i = .runConfiguration ∨ i = .loadBitstream) ∧
      s.cfg.shortBlockPolicy = .reject) ∨
    (t.result = 6 ∧ i = .runConfiguration ∧ s.cfg.pollLimit ≠ none)

/-- R247 and R249 for the errors after acceptance: the step makes the one read that led to the error and
no access after it; the device, `snap` and `cmd` are left as they were. -/
def Obligations.ErrorsRollNothingBack : Prop :=
  ∀ s t : State, s.Inv → s.busy = true → blockStep s = .next t → t.busy = false → t.result ≠ 1 →
    t.statReg = s.statReg ∧ t.ctrlReg = s.ctrlReg ∧ t.gpioReg = s.gpioReg ∧ t.fifo = s.fifo ∧
    t.snap = s.snap ∧ t.cmd = s.cmd ∧ t.ctl = s.ctl ∧ t.gp = s.gp ∧
    ∃ e, isAccess e = true ∧ isWrite e = false ∧ t.trace = s.trace ++ [e, .res t.result]

/-- What a step of the block can change of the device and of the ports (R38, R39, R171, R199, R221): the
GPIO register never, STAT only by the command `reset`, CTRL only in the write half of a read-modify-write
of CTRL, the FIFO only in the loader's write step; the parameters, the window flag, the image and the
environment's schedule never. -/
def Obligations.DeviceChangesOnlyByItsWrite : Prop :=
  ∀ s t : State, blockStep s = .next t →
    t.gpioReg = s.gpioReg ∧ t.winMapped = s.winMapped ∧ t.image = s.image ∧ t.cfg = s.cfg ∧
    t.env = s.env ∧
    (s.pc ≠ ⟨.cmdReset, .m1⟩ → t.statReg = s.statReg ∧ t.freeCtr = s.freeCtr) ∧
    (¬ (s.pc.minor = .m1 ∧
        s.pc.major ∈ [.run2, .run3, .run5, .run6, .run8, .run11a, .run11b, .cmdSetf]) →
      t.ctrlReg = s.ctrlReg) ∧
    (s.pc ≠ ⟨.run9, .m1⟩ → s.pc ≠ ⟨.cmdLoad, .m1⟩ → t.fifo = s.fifo) ∧
    (s.pc.major ≠ .idle → t.cmdPort = s.cmdPort)

/-- R33, R38, R108 (b), R171: a write of CTRL carries, in every unnamed bit and in `cfgwdth` (mask
0xFE3A), what the preceding read returned. -/
def Obligations.ControlWritesPreserveUnnamedBits : Prop :=
  ∀ (s t : State) (a : Nat) (v : Halfword) (es : List Event), blockStep s = .next t →
    t.trace = s.trace ++ .wr16 a v :: es →
    a = s.cfg.csrBase + 0x004 ∧ t.ctrlReg = v ∧ v &&& 0xFE3A = s.ctl &&& 0xFE3A

/-- R290: whatever state a step starts from and whatever the environment does, where it leaves the block
before the write half of a read-modify-write, the last event is that location's own read, and the working
register holds what it returned. -/
def Obligations.EveryWriteFollowsItsOwnRead : Prop :=
  ∀ s t : State, step s = .next t → ReadBeforeWrite t

/-- R61, R65, R66: with legal parameters every address the block uses is aligned to its width and inside
its range, and the ranges are disjoint. -/
def Obligations.AddressesAlignedAndInside : Prop :=
  ∀ c : Config, c.valid = true →
    statAddr c = c.csrBase ∧ ctrlAddr c = c.csrBase + 0x004 ∧ gpioAddr c = c.csrBase + 0x840 ∧
    dataAddr c = c.dataBase ∧
    ctrlAddr c % 2 = 0 ∧ gpioAddr c % 2 = 0 ∧ dataAddr c % 4 = 0 ∧
    (∀ a ∈ [statAddr c, ctrlAddr c, gpioAddr c], c.csrBase ≤ a ∧ a + 2 ≤ c.csrBase + c.csrExtent) ∧
    c.dataBase ≤ dataAddr c ∧ dataAddr c + 4 ≤ c.dataBase + c.dataExtent ∧
    ∀ a : Nat, ¬ (c.csrBase ≤ a ∧ a < c.csrBase + c.csrExtent ∧
      c.dataBase ≤ a ∧ a < c.dataBase + c.dataExtent)

/-- The parameters are not state (R47): no step changes them, whatever the environment does. -/
def Obligations.ParametersNeverChange : Prop :=
  ∀ s t : State, step s = .next t → t.cfg = s.cfg

/-! ### Reset and the environment -/

/-- R46 and R280: after reset, and after a block reset at any `pc`, the block's own state has the values
of R46; a block reset changes nothing of the device, of the image source or of `win_mapped`, and emits no
event. -/
def Obligations.ResetValues : Prop :=
  (∀ u : State, u = State.reset ∨ (∃ s, u = applyMove s .blockReset) →
    u.pc = ⟨.idle, .m0⟩ ∧ u.busy = false ∧ u.result = 0 ∧ u.snap = ⟨0, 0, 0, 0, 0, 0, 0, 0⟩ ∧
    u.cmd = 0x0000 ∧ u.ctl = 0 ∧ u.st = 0 ∧ u.gp = 0 ∧ u.blk = ⟨0x00, 0x00, 0x00, 0x00⟩ ∧ u.n = 0 ∧
    u.w = 0 ∧ u.polls = 0) ∧
  ∀ s : State, let u := applyMove s .blockReset
    u.statReg = s.statReg ∧ u.ctrlReg = s.ctrlReg ∧ u.gpioReg = s.gpioReg ∧ u.fifo = s.fifo ∧
    u.image = s.image ∧ u.imgPos = s.imgPos ∧ u.imgPlan = s.imgPlan ∧ u.winMapped = s.winMapped ∧
    ∀ e ∈ u.trace, e ∈ s.trace

/-- R281: a block reset between the read and the write of a read-modify-write drops the write: at every
one of the block, the seven of a run, the setters' and the one of `reset`. The read half is a step of its
own; the reset comes in the gap after it; then the device is as before the command's read, no write is
made, and with no word offered the block is idle with `result` 0. That the trace begins anew is the
model's choice (log 12). -/
def Obligations.ResetBetweenHalvesDropsTheWrite : Prop :=
  ∀ (s : State) (later : List (List EnvMove)), s.Inv → s.cfg.valid = true → s.pc.minor = .m0 →
    s.pc.major ∈ ctrlWriters ∨ s.pc.major = .cmdReset → s.env = [] :: [.blockReset] :: later →
    ∃ u t, step s = .next u ∧ u.pc = ⟨s.pc.major, .m1⟩ ∧ ReadBeforeWrite u ∧ step u = .next t ∧
      t.statReg = s.statReg ∧ t.ctrlReg = s.ctrlReg ∧ t.gpioReg = s.gpioReg ∧ t.fifo = s.fifo ∧
      t.trace.filter isWrite = [] ∧
      (s.cmdPort = [] → t.pc = ⟨.idle, .m0⟩ ∧ t.busy = false ∧ t.result = 0 ∧ t.trace = [])

/-- R70 and R293: no read-modify-write of the block is atomic. At each of those of CTRL, the seven of a
run and the setters', a change of CTRL by another agent between the two halves is lost: CTRL ends as the
value read with the field set, whatever was put there in between. The same for STAT and `reset`, where
the byte written is the one read with mode 1; what STAT shows after it is a free value (log 6). -/
def Obligations.ReadModifyWriteLosesAnUpdate : Prop :=
  (∀ (s : State) (other : Halfword) (later : List (List EnvMove)), s.Inv → s.cfg.valid = true →
    s.pc.minor = .m0 → s.pc.major ∈ ctrlWriters → s.env = [] :: [.showCtrl other] :: later →
    ∃ (f : CtrlField) (val : Nat) (t : State), microOpAt s = some (.writeControlField f val) ∧
      runSteps 2 s = .next t ∧ t.ctrlReg = insertField (ctrlDesc f) s.ctrlReg val ∧
      t.trace = s.trace ++ [.rd16 (s.cfg.csrBase + 0x004) s.ctrlReg,
          .wr16 (s.cfg.csrBase + 0x004) t.ctrlReg] ++
        (if s.pc.major = .cmdSetf then [.res 1] else [])) ∧
  ∀ (s : State) (other : Byte) (later : List (List EnvMove)), s.cfg.valid = true →
    s.pc = ⟨.cmdReset, .m0⟩ → s.env = [] :: [.showStat other] :: later →
    ∃ t, runSteps 2 s = .next t ∧ t.result = 1 ∧
      t.trace = s.trace ++ [.rd8 (s.cfg.csrBase + 0x000) s.statReg,
        .wr8 (s.cfg.csrBase + 0x000) ((s.statReg &&& 0xF8) ||| 0x01), .res 1]

/-- R212 and R44: the three reads of a report are three steps, each answered by what the device shows at
that step. For any byte and any two halfwords there is a schedule that makes them the three answers, so
`snap` can combine values that never held together: here the device moves on after each read. -/
def Obligations.SnapshotIsNotAtomic : Prop :=
  ∀ (s : State) (v v' : Byte) (c c' g : Halfword) (later : List (List EnvMove)), s.cfg.valid = true →
    s.pc = ⟨.cmdReport, .m0⟩ →
    s.env = [.showStat v] :: [.showStat v', .showCtrl c] :: [.showCtrl c', .showGpio g] :: later →
    ∃ t, runSteps 3 s = .next t ∧ t.snap = assembleSnap v c g ∧ t.statReg = v' ∧ t.ctrlReg = c' ∧
      t.result = 1

/-! ### What no command writes -/

/-- R38, R122 (d), R108 (e) and R123 (d), in every state: no step of the block writes CTRL with another
`cfgwdth` than the one read, and none writes another mode code than 1; the `msel` bits go back as read. -/
def Obligations.NoCommandWritesCfgwdthOrAnotherMode : Prop :=
  ∀ (s t : State) (es : List Event), blockStep s = .next t → t.trace = s.trace ++ es →
    (∀ a v, .wr16 a v ∈ es → a = s.cfg.csrBase + 0x004 ∧
      v.extractLsb' 9 1 = s.ctl.extractLsb' 9 1) ∧
    ∀ a v, .wr8 a v ∈ es → a = s.cfg.csrBase + 0x000 ∧ v = (s.st &&& 0xF8) ||| 0x01
end

