-- ==== Sys2Proof/Laws/State.lean ====
section
/-! SUPPORT. One lemma for each field of State and each named update: what the update makes of the field. -/

namespace Sys2Proof.Machine

variable (s : State)

/-! ### `readStat` -/

@[simp] theorem readStat_pc : (readStat s).pc = s.pc := rfl
@[simp] theorem readStat_busy : (readStat s).busy = s.busy := rfl
@[simp] theorem readStat_result : (readStat s).result = s.result := rfl
@[simp] theorem readStat_snap : (readStat s).snap = s.snap := rfl
@[simp] theorem readStat_cmd : (readStat s).cmd = s.cmd := rfl
@[simp] theorem readStat_ctl : (readStat s).ctl = s.ctl := rfl
@[simp] theorem readStat_st : (readStat s).st = s.statReg := rfl
@[simp] theorem readStat_gp : (readStat s).gp = s.gp := rfl
@[simp] theorem readStat_blk : (readStat s).blk = s.blk := rfl
@[simp] theorem readStat_n : (readStat s).n = s.n := rfl
@[simp] theorem readStat_w : (readStat s).w = s.w := rfl
@[simp] theorem readStat_polls : (readStat s).polls = s.polls := rfl
@[simp] theorem readStat_statReg : (readStat s).statReg = s.statReg := rfl
@[simp] theorem readStat_ctrlReg : (readStat s).ctrlReg = s.ctrlReg := rfl
@[simp] theorem readStat_gpioReg : (readStat s).gpioReg = s.gpioReg := rfl
@[simp] theorem readStat_fifo : (readStat s).fifo = s.fifo := rfl
@[simp] theorem readStat_winMapped : (readStat s).winMapped = s.winMapped := rfl
@[simp] theorem readStat_image : (readStat s).image = s.image := rfl
@[simp] theorem readStat_imgPos : (readStat s).imgPos = s.imgPos := rfl
@[simp] theorem readStat_imgPlan : (readStat s).imgPlan = s.imgPlan := rfl
@[simp] theorem readStat_cmdPort : (readStat s).cmdPort = s.cmdPort := rfl
@[simp] theorem readStat_cfg : (readStat s).cfg = s.cfg := rfl
@[simp] theorem readStat_env : (readStat s).env = s.env := rfl
@[simp] theorem readStat_trace : (readStat s).trace = s.trace ++ [.rd8 (statAddr s.cfg) s.statReg] := rfl
@[simp] theorem readStat_freeCtr : (readStat s).freeCtr = s.freeCtr := rfl

/-! ### `readCtrl` -/

@[simp] theorem readCtrl_pc : (readCtrl s).pc = s.pc := rfl
@[simp] theorem readCtrl_busy : (readCtrl s).busy = s.busy := rfl
@[simp] theorem readCtrl_result : (readCtrl s).result = s.result := rfl
@[simp] theorem readCtrl_snap : (readCtrl s).snap = s.snap := rfl
@[simp] theorem readCtrl_cmd : (readCtrl s).cmd = s.cmd := rfl
@[simp] theorem readCtrl_ctl : (readCtrl s).ctl = s.ctrlReg := rfl
@[simp] theorem readCtrl_st : (readCtrl s).st = s.st := rfl
@[simp] theorem readCtrl_gp : (readCtrl s).gp = s.gp := rfl
@[simp] theorem readCtrl_blk : (readCtrl s).blk = s.blk := rfl
@[simp] theorem readCtrl_n : (readCtrl s).n = s.n := rfl
@[simp] theorem readCtrl_w : (readCtrl s).w = s.w := rfl
@[simp] theorem readCtrl_polls : (readCtrl s).polls = s.polls := rfl
@[simp] theorem readCtrl_statReg : (readCtrl s).statReg = s.statReg := rfl
@[simp] theorem readCtrl_ctrlReg : (readCtrl s).ctrlReg = s.ctrlReg := rfl
@[simp] theorem readCtrl_gpioReg : (readCtrl s).gpioReg = s.gpioReg := rfl
@[simp] theorem readCtrl_fifo : (readCtrl s).fifo = s.fifo := rfl
@[simp] theorem readCtrl_winMapped : (readCtrl s).winMapped = s.winMapped := rfl
@[simp] theorem readCtrl_image : (readCtrl s).image = s.image := rfl
@[simp] theorem readCtrl_imgPos : (readCtrl s).imgPos = s.imgPos := rfl
@[simp] theorem readCtrl_imgPlan : (readCtrl s).imgPlan = s.imgPlan := rfl
@[simp] theorem readCtrl_cmdPort : (readCtrl s).cmdPort = s.cmdPort := rfl
@[simp] theorem readCtrl_cfg : (readCtrl s).cfg = s.cfg := rfl
@[simp] theorem readCtrl_env : (readCtrl s).env = s.env := rfl
@[simp] theorem readCtrl_trace : (readCtrl s).trace = s.trace ++ [.rd16 (ctrlAddr s.cfg) s.ctrlReg] := rfl
@[simp] theorem readCtrl_freeCtr : (readCtrl s).freeCtr = s.freeCtr := rfl

/-! ### `readGpio` -/

@[simp] theorem readGpio_pc : (readGpio s).pc = s.pc := rfl
@[simp] theorem readGpio_busy : (readGpio s).busy = s.busy := rfl
@[simp] theorem readGpio_result : (readGpio s).result = s.result := rfl
@[simp] theorem readGpio_snap : (readGpio s).snap = s.snap := rfl
@[simp] theorem readGpio_cmd : (readGpio s).cmd = s.cmd := rfl
@[simp] theorem readGpio_ctl : (readGpio s).ctl = s.ctl := rfl
@[simp] theorem readGpio_st : (readGpio s).st = s.st := rfl
@[simp] theorem readGpio_gp : (readGpio s).gp = s.gpioReg := rfl
@[simp] theorem readGpio_blk : (readGpio s).blk = s.blk := rfl
@[simp] theorem readGpio_n : (readGpio s).n = s.n := rfl
@[simp] theorem readGpio_w : (readGpio s).w = s.w := rfl
@[simp] theorem readGpio_polls : (readGpio s).polls = s.polls := rfl
@[simp] theorem readGpio_statReg : (readGpio s).statReg = s.statReg := rfl
@[simp] theorem readGpio_ctrlReg : (readGpio s).ctrlReg = s.ctrlReg := rfl
@[simp] theorem readGpio_gpioReg : (readGpio s).gpioReg = s.gpioReg := rfl
@[simp] theorem readGpio_fifo : (readGpio s).fifo = s.fifo := rfl
@[simp] theorem readGpio_winMapped : (readGpio s).winMapped = s.winMapped := rfl
@[simp] theorem readGpio_image : (readGpio s).image = s.image := rfl
@[simp] theorem readGpio_imgPos : (readGpio s).imgPos = s.imgPos := rfl
@[simp] theorem readGpio_imgPlan : (readGpio s).imgPlan = s.imgPlan := rfl
@[simp] theorem readGpio_cmdPort : (readGpio s).cmdPort = s.cmdPort := rfl
@[simp] theorem readGpio_cfg : (readGpio s).cfg = s.cfg := rfl
@[simp] theorem readGpio_env : (readGpio s).env = s.env := rfl
@[simp] theorem readGpio_trace : (readGpio s).trace = s.trace ++ [.rd16 (gpioAddr s.cfg) s.gpioReg] := rfl
@[simp] theorem readGpio_freeCtr : (readGpio s).freeCtr = s.freeCtr := rfl

/-! ### `writeCtrl` -/

@[simp] theorem writeCtrl_pc (v : Halfword) : (writeCtrl v s).pc = s.pc := rfl
@[simp] theorem writeCtrl_busy (v : Halfword) : (writeCtrl v s).busy = s.busy := rfl
@[simp] theorem writeCtrl_result (v : Halfword) : (writeCtrl v s).result = s.result := rfl
@[simp] theorem writeCtrl_snap (v : Halfword) : (writeCtrl v s).snap = s.snap := rfl
@[simp] theorem writeCtrl_cmd (v : Halfword) : (writeCtrl v s).cmd = s.cmd := rfl
@[simp] theorem writeCtrl_ctl (v : Halfword) : (writeCtrl v s).ctl = s.ctl := rfl
@[simp] theorem writeCtrl_st (v : Halfword) : (writeCtrl v s).st = s.st := rfl
@[simp] theorem writeCtrl_gp (v : Halfword) : (writeCtrl v s).gp = s.gp := rfl
@[simp] theorem writeCtrl_blk (v : Halfword) : (writeCtrl v s).blk = s.blk := rfl
@[simp] theorem writeCtrl_n (v : Halfword) : (writeCtrl v s).n = s.n := rfl
@[simp] theorem writeCtrl_w (v : Halfword) : (writeCtrl v s).w = s.w := rfl
@[simp] theorem writeCtrl_polls (v : Halfword) : (writeCtrl v s).polls = s.polls := rfl
@[simp] theorem writeCtrl_statReg (v : Halfword) : (writeCtrl v s).statReg = s.statReg := rfl
@[simp] theorem writeCtrl_ctrlReg (v : Halfword) : (writeCtrl v s).ctrlReg = v := rfl
@[simp] theorem writeCtrl_gpioReg (v : Halfword) : (writeCtrl v s).gpioReg = s.gpioReg := rfl
@[simp] theorem writeCtrl_fifo (v : Halfword) : (writeCtrl v s).fifo = s.fifo := rfl
@[simp] theorem writeCtrl_winMapped (v : Halfword) : (writeCtrl v s).winMapped = s.winMapped := rfl
@[simp] theorem writeCtrl_image (v : Halfword) : (writeCtrl v s).image = s.image := rfl
@[simp] theorem writeCtrl_imgPos (v : Halfword) : (writeCtrl v s).imgPos = s.imgPos := rfl
@[simp] theorem writeCtrl_imgPlan (v : Halfword) : (writeCtrl v s).imgPlan = s.imgPlan := rfl
@[simp] theorem writeCtrl_cmdPort (v : Halfword) : (writeCtrl v s).cmdPort = s.cmdPort := rfl
@[simp] theorem writeCtrl_cfg (v : Halfword) : (writeCtrl v s).cfg = s.cfg := rfl
@[simp] theorem writeCtrl_env (v : Halfword) : (writeCtrl v s).env = s.env := rfl
@[simp] theorem writeCtrl_trace (v : Halfword) : (writeCtrl v s).trace = s.trace ++ [.wr16 (ctrlAddr s.cfg) v] := rfl
@[simp] theorem writeCtrl_freeCtr (v : Halfword) : (writeCtrl v s).freeCtr = s.freeCtr := rfl

/-! ### `writeStat` -/

@[simp] theorem writeStat_pc (v : Byte) : (writeStat v s).pc = s.pc := rfl
@[simp] theorem writeStat_busy (v : Byte) : (writeStat v s).busy = s.busy := rfl
@[simp] theorem writeStat_result (v : Byte) : (writeStat v s).result = s.result := rfl
@[simp] theorem writeStat_snap (v : Byte) : (writeStat v s).snap = s.snap := rfl
@[simp] theorem writeStat_cmd (v : Byte) : (writeStat v s).cmd = s.cmd := rfl
@[simp] theorem writeStat_ctl (v : Byte) : (writeStat v s).ctl = s.ctl := rfl
@[simp] theorem writeStat_st (v : Byte) : (writeStat v s).st = s.st := rfl
@[simp] theorem writeStat_gp (v : Byte) : (writeStat v s).gp = s.gp := rfl
@[simp] theorem writeStat_blk (v : Byte) : (writeStat v s).blk = s.blk := rfl
@[simp] theorem writeStat_n (v : Byte) : (writeStat v s).n = s.n := rfl
@[simp] theorem writeStat_w (v : Byte) : (writeStat v s).w = s.w := rfl
@[simp] theorem writeStat_polls (v : Byte) : (writeStat v s).polls = s.polls := rfl
@[simp] theorem writeStat_statReg (v : Byte) : (writeStat v s).statReg = Config.statAfterWrite s.freeCtr v := rfl
@[simp] theorem writeStat_ctrlReg (v : Byte) : (writeStat v s).ctrlReg = s.ctrlReg := rfl
@[simp] theorem writeStat_gpioReg (v : Byte) : (writeStat v s).gpioReg = s.gpioReg := rfl
@[simp] theorem writeStat_fifo (v : Byte) : (writeStat v s).fifo = s.fifo := rfl
@[simp] theorem writeStat_winMapped (v : Byte) : (writeStat v s).winMapped = s.winMapped := rfl
@[simp] theorem writeStat_image (v : Byte) : (writeStat v s).image = s.image := rfl
@[simp] theorem writeStat_imgPos (v : Byte) : (writeStat v s).imgPos = s.imgPos := rfl
@[simp] theorem writeStat_imgPlan (v : Byte) : (writeStat v s).imgPlan = s.imgPlan := rfl
@[simp] theorem writeStat_cmdPort (v : Byte) : (writeStat v s).cmdPort = s.cmdPort := rfl
@[simp] theorem writeStat_cfg (v : Byte) : (writeStat v s).cfg = s.cfg := rfl
@[simp] theorem writeStat_env (v : Byte) : (writeStat v s).env = s.env := rfl
@[simp] theorem writeStat_trace (v : Byte) : (writeStat v s).trace = s.trace ++ [.wr8 (statAddr s.cfg) v] := rfl
@[simp] theorem writeStat_freeCtr (v : Byte) : (writeStat v s).freeCtr = s.freeCtr + 1 := rfl

/-! ### `writeData` -/

@[simp] theorem writeData_pc (v : Word) : (writeData v s).pc = s.pc := rfl
@[simp] theorem writeData_busy (v : Word) : (writeData v s).busy = s.busy := rfl
@[simp] theorem writeData_result (v : Word) : (writeData v s).result = s.result := rfl
@[simp] theorem writeData_snap (v : Word) : (writeData v s).snap = s.snap := rfl
@[simp] theorem writeData_cmd (v : Word) : (writeData v s).cmd = s.cmd := rfl
@[simp] theorem writeData_ctl (v : Word) : (writeData v s).ctl = s.ctl := rfl
@[simp] theorem writeData_st (v : Word) : (writeData v s).st = s.st := rfl
@[simp] theorem writeData_gp (v : Word) : (writeData v s).gp = s.gp := rfl
@[simp] theorem writeData_blk (v : Word) : (writeData v s).blk = s.blk := rfl
@[simp] theorem writeData_n (v : Word) : (writeData v s).n = s.n := rfl
@[simp] theorem writeData_w (v : Word) : (writeData v s).w = s.w := rfl
@[simp] theorem writeData_polls (v : Word) : (writeData v s).polls = s.polls := rfl
@[simp] theorem writeData_statReg (v : Word) : (writeData v s).statReg = s.statReg := rfl
@[simp] theorem writeData_ctrlReg (v : Word) : (writeData v s).ctrlReg = s.ctrlReg := rfl
@[simp] theorem writeData_gpioReg (v : Word) : (writeData v s).gpioReg = s.gpioReg := rfl
@[simp] theorem writeData_fifo (v : Word) : (writeData v s).fifo = s.fifo ++ [v] := rfl
@[simp] theorem writeData_winMapped (v : Word) : (writeData v s).winMapped = s.winMapped := rfl
@[simp] theorem writeData_image (v : Word) : (writeData v s).image = s.image := rfl
@[simp] theorem writeData_imgPos (v : Word) : (writeData v s).imgPos = s.imgPos := rfl
@[simp] theorem writeData_imgPlan (v : Word) : (writeData v s).imgPlan = s.imgPlan := rfl
@[simp] theorem writeData_cmdPort (v : Word) : (writeData v s).cmdPort = s.cmdPort := rfl
@[simp] theorem writeData_cfg (v : Word) : (writeData v s).cfg = s.cfg := rfl
@[simp] theorem writeData_env (v : Word) : (writeData v s).env = s.env := rfl
@[simp] theorem writeData_trace (v : Word) : (writeData v s).trace = s.trace ++ [.wr32 (dataAddr s.cfg) v] := rfl
@[simp] theorem writeData_freeCtr (v : Word) : (writeData v s).freeCtr = s.freeCtr := rfl

/-! ### `goto` -/

@[simp] theorem goto_pc (m : Major) (k : Minor) : (goto m k s).pc = ⟨m, k⟩ := rfl
@[simp] theorem goto_busy (m : Major) (k : Minor) : (goto m k s).busy = s.busy := rfl
@[simp] theorem goto_result (m : Major) (k : Minor) : (goto m k s).result = s.result := rfl
@[simp] theorem goto_snap (m : Major) (k : Minor) : (goto m k s).snap = s.snap := rfl
@[simp] theorem goto_cmd (m : Major) (k : Minor) : (goto m k s).cmd = s.cmd := rfl
@[simp] theorem goto_ctl (m : Major) (k : Minor) : (goto m k s).ctl = s.ctl := rfl
@[simp] theorem goto_st (m : Major) (k : Minor) : (goto m k s).st = s.st := rfl
@[simp] theorem goto_gp (m : Major) (k : Minor) : (goto m k s).gp = s.gp := rfl
@[simp] theorem goto_blk (m : Major) (k : Minor) : (goto m k s).blk = s.blk := rfl
@[simp] theorem goto_n (m : Major) (k : Minor) : (goto m k s).n = s.n := rfl
@[simp] theorem goto_w (m : Major) (k : Minor) : (goto m k s).w = s.w := rfl
@[simp] theorem goto_polls (m : Major) (k : Minor) : (goto m k s).polls = s.polls := rfl
@[simp] theorem goto_statReg (m : Major) (k : Minor) : (goto m k s).statReg = s.statReg := rfl
@[simp] theorem goto_ctrlReg (m : Major) (k : Minor) : (goto m k s).ctrlReg = s.ctrlReg := rfl
@[simp] theorem goto_gpioReg (m : Major) (k : Minor) : (goto m k s).gpioReg = s.gpioReg := rfl
@[simp] theorem goto_fifo (m : Major) (k : Minor) : (goto m k s).fifo = s.fifo := rfl
@[simp] theorem goto_winMapped (m : Major) (k : Minor) : (goto m k s).winMapped = s.winMapped := rfl
@[simp] theorem goto_image (m : Major) (k : Minor) : (goto m k s).image = s.image := rfl
@[simp] theorem goto_imgPos (m : Major) (k : Minor) : (goto m k s).imgPos = s.imgPos := rfl
@[simp] theorem goto_imgPlan (m : Major) (k : Minor) : (goto m k s).imgPlan = s.imgPlan := rfl
@[simp] theorem goto_cmdPort (m : Major) (k : Minor) : (goto m k s).cmdPort = s.cmdPort := rfl
@[simp] theorem goto_cfg (m : Major) (k : Minor) : (goto m k s).cfg = s.cfg := rfl
@[simp] theorem goto_env (m : Major) (k : Minor) : (goto m k s).env = s.env := rfl
@[simp] theorem goto_trace (m : Major) (k : Minor) : (goto m k s).trace = s.trace := rfl
@[simp] theorem goto_freeCtr (m : Major) (k : Minor) : (goto m k s).freeCtr = s.freeCtr := rfl

/-! ### `enterWait` -/

@[simp] theorem enterWait_pc (m : Major) : (enterWait m s).pc = ⟨m, .m0⟩ := rfl
@[simp] theorem enterWait_busy (m : Major) : (enterWait m s).busy = s.busy := rfl
@[simp] theorem enterWait_result (m : Major) : (enterWait m s).result = s.result := rfl
@[simp] theorem enterWait_snap (m : Major) : (enterWait m s).snap = s.snap := rfl
@[simp] theorem enterWait_cmd (m : Major) : (enterWait m s).cmd = s.cmd := rfl
@[simp] theorem enterWait_ctl (m : Major) : (enterWait m s).ctl = s.ctl := rfl
@[simp] theorem enterWait_st (m : Major) : (enterWait m s).st = s.st := rfl
@[simp] theorem enterWait_gp (m : Major) : (enterWait m s).gp = s.gp := rfl
@[simp] theorem enterWait_blk (m : Major) : (enterWait m s).blk = s.blk := rfl
@[simp] theorem enterWait_n (m : Major) : (enterWait m s).n = s.n := rfl
@[simp] theorem enterWait_w (m : Major) : (enterWait m s).w = s.w := rfl
@[simp] theorem enterWait_polls (m : Major) : (enterWait m s).polls = 0 := rfl
@[simp] theorem enterWait_statReg (m : Major) : (enterWait m s).statReg = s.statReg := rfl
@[simp] theorem enterWait_ctrlReg (m : Major) : (enterWait m s).ctrlReg = s.ctrlReg := rfl
@[simp] theorem enterWait_gpioReg (m : Major) : (enterWait m s).gpioReg = s.gpioReg := rfl
@[simp] theorem enterWait_fifo (m : Major) : (enterWait m s).fifo = s.fifo := rfl
@[simp] theorem enterWait_winMapped (m : Major) : (enterWait m s).winMapped = s.winMapped := rfl
@[simp] theorem enterWait_image (m : Major) : (enterWait m s).image = s.image := rfl
@[simp] theorem enterWait_imgPos (m : Major) : (enterWait m s).imgPos = s.imgPos := rfl
@[simp] theorem enterWait_imgPlan (m : Major) : (enterWait m s).imgPlan = s.imgPlan := rfl
@[simp] theorem enterWait_cmdPort (m : Major) : (enterWait m s).cmdPort = s.cmdPort := rfl
@[simp] theorem enterWait_cfg (m : Major) : (enterWait m s).cfg = s.cfg := rfl
@[simp] theorem enterWait_env (m : Major) : (enterWait m s).env = s.env := rfl
@[simp] theorem enterWait_trace (m : Major) : (enterWait m s).trace = s.trace := rfl
@[simp] theorem enterWait_freeCtr (m : Major) : (enterWait m s).freeCtr = s.freeCtr := rfl

/-! ### `finish` -/

@[simp] theorem finish_pc (r : ResultKind) : (finish r s).pc = ⟨.idle, .m0⟩ := rfl
@[simp] theorem finish_busy (r : ResultKind) : (finish r s).busy = false := rfl
@[simp] theorem finish_result (r : ResultKind) : (finish r s).result = resultCode r := rfl
@[simp] theorem finish_snap (r : ResultKind) : (finish r s).snap = s.snap := rfl
@[simp] theorem finish_cmd (r : ResultKind) : (finish r s).cmd = s.cmd := rfl
@[simp] theorem finish_ctl (r : ResultKind) : (finish r s).ctl = s.ctl := rfl
@[simp] theorem finish_st (r : ResultKind) : (finish r s).st = s.st := rfl
@[simp] theorem finish_gp (r : ResultKind) : (finish r s).gp = s.gp := rfl
@[simp] theorem finish_blk (r : ResultKind) : (finish r s).blk = s.blk := rfl
@[simp] theorem finish_n (r : ResultKind) : (finish r s).n = s.n := rfl
@[simp] theorem finish_w (r : ResultKind) : (finish r s).w = s.w := rfl
@[simp] theorem finish_polls (r : ResultKind) : (finish r s).polls = s.polls := rfl
@[simp] theorem finish_statReg (r : ResultKind) : (finish r s).statReg = s.statReg := rfl
@[simp] theorem finish_ctrlReg (r : ResultKind) : (finish r s).ctrlReg = s.ctrlReg := rfl
@[simp] theorem finish_gpioReg (r : ResultKind) : (finish r s).gpioReg = s.gpioReg := rfl
@[simp] theorem finish_fifo (r : ResultKind) : (finish r s).fifo = s.fifo := rfl
@[simp] theorem finish_winMapped (r : ResultKind) : (finish r s).winMapped = s.winMapped := rfl
@[simp] theorem finish_image (r : ResultKind) : (finish r s).image = s.image := rfl
@[simp] theorem finish_imgPos (r : ResultKind) : (finish r s).imgPos = s.imgPos := rfl
@[simp] theorem finish_imgPlan (r : ResultKind) : (finish r s).imgPlan = s.imgPlan := rfl
@[simp] theorem finish_cmdPort (r : ResultKind) : (finish r s).cmdPort = s.cmdPort := rfl
@[simp] theorem finish_cfg (r : ResultKind) : (finish r s).cfg = s.cfg := rfl
@[simp] theorem finish_env (r : ResultKind) : (finish r s).env = s.env := rfl
@[simp] theorem finish_trace (r : ResultKind) : (finish r s).trace = s.trace ++ [.res (resultCode r)] := rfl
@[simp] theorem finish_freeCtr (r : ResultKind) : (finish r s).freeCtr = s.freeCtr := rfl

/-! ### `latchCommand` -/

@[simp] theorem latchCommand_pc (c : Halfword) : (latchCommand c s).pc = s.pc := rfl
@[simp] theorem latchCommand_busy (c : Halfword) : (latchCommand c s).busy = true := rfl
@[simp] theorem latchCommand_result (c : Halfword) : (latchCommand c s).result = 0 := rfl
@[simp] theorem latchCommand_snap (c : Halfword) : (latchCommand c s).snap = s.snap := rfl
@[simp] theorem latchCommand_cmd (c : Halfword) : (latchCommand c s).cmd = c := rfl
@[simp] theorem latchCommand_ctl (c : Halfword) : (latchCommand c s).ctl = s.ctl := rfl
@[simp] theorem latchCommand_st (c : Halfword) : (latchCommand c s).st = s.st := rfl
@[simp] theorem latchCommand_gp (c : Halfword) : (latchCommand c s).gp = s.gp := rfl
@[simp] theorem latchCommand_blk (c : Halfword) : (latchCommand c s).blk = s.blk := rfl
@[simp] theorem latchCommand_n (c : Halfword) : (latchCommand c s).n = s.n := rfl
@[simp] theorem latchCommand_w (c : Halfword) : (latchCommand c s).w = s.w := rfl
@[simp] theorem latchCommand_polls (c : Halfword) : (latchCommand c s).polls = s.polls := rfl
@[simp] theorem latchCommand_statReg (c : Halfword) : (latchCommand c s).statReg = s.statReg := rfl
@[simp] theorem latchCommand_ctrlReg (c : Halfword) : (latchCommand c s).ctrlReg = s.ctrlReg := rfl
@[simp] theorem latchCommand_gpioReg (c : Halfword) : (latchCommand c s).gpioReg = s.gpioReg := rfl
@[simp] theorem latchCommand_fifo (c : Halfword) : (latchCommand c s).fifo = s.fifo := rfl
@[simp] theorem latchCommand_winMapped (c : Halfword) : (latchCommand c s).winMapped = s.winMapped := rfl
@[simp] theorem latchCommand_image (c : Halfword) : (latchCommand c s).image = s.image := rfl
@[simp] theorem latchCommand_imgPos (c : Halfword) : (latchCommand c s).imgPos = s.imgPos := rfl
@[simp] theorem latchCommand_imgPlan (c : Halfword) : (latchCommand c s).imgPlan = s.imgPlan := rfl
@[simp] theorem latchCommand_cmdPort (c : Halfword) : (latchCommand c s).cmdPort = s.cmdPort := rfl
@[simp] theorem latchCommand_cfg (c : Halfword) : (latchCommand c s).cfg = s.cfg := rfl
@[simp] theorem latchCommand_env (c : Halfword) : (latchCommand c s).env = s.env := rfl
@[simp] theorem latchCommand_trace (c : Halfword) : (latchCommand c s).trace = s.trace ++ [.cmd c] := rfl
@[simp] theorem latchCommand_freeCtr (c : Halfword) : (latchCommand c s).freeCtr = s.freeCtr := rfl

/-! ### `takeSnap` -/

@[simp] theorem takeSnap_pc : (takeSnap s).pc = s.pc := rfl
@[simp] theorem takeSnap_busy : (takeSnap s).busy = s.busy := rfl
@[simp] theorem takeSnap_result : (takeSnap s).result = s.result := rfl
@[simp] theorem takeSnap_snap : (takeSnap s).snap = assembleSnap s.st s.ctl s.gp := rfl
@[simp] theorem takeSnap_cmd : (takeSnap s).cmd = s.cmd := rfl
@[simp] theorem takeSnap_ctl : (takeSnap s).ctl = s.ctl := rfl
@[simp] theorem takeSnap_st : (takeSnap s).st = s.st := rfl
@[simp] theorem takeSnap_gp : (takeSnap s).gp = s.gp := rfl
@[simp] theorem takeSnap_blk : (takeSnap s).blk = s.blk := rfl
@[simp] theorem takeSnap_n : (takeSnap s).n = s.n := rfl
@[simp] theorem takeSnap_w : (takeSnap s).w = s.w := rfl
@[simp] theorem takeSnap_polls : (takeSnap s).polls = s.polls := rfl
@[simp] theorem takeSnap_statReg : (takeSnap s).statReg = s.statReg := rfl
@[simp] theorem takeSnap_ctrlReg : (takeSnap s).ctrlReg = s.ctrlReg := rfl
@[simp] theorem takeSnap_gpioReg : (takeSnap s).gpioReg = s.gpioReg := rfl
@[simp] theorem takeSnap_fifo : (takeSnap s).fifo = s.fifo := rfl
@[simp] theorem takeSnap_winMapped : (takeSnap s).winMapped = s.winMapped := rfl
@[simp] theorem takeSnap_image : (takeSnap s).image = s.image := rfl
@[simp] theorem takeSnap_imgPos : (takeSnap s).imgPos = s.imgPos := rfl
@[simp] theorem takeSnap_imgPlan : (takeSnap s).imgPlan = s.imgPlan := rfl
@[simp] theorem takeSnap_cmdPort : (takeSnap s).cmdPort = s.cmdPort := rfl
@[simp] theorem takeSnap_cfg : (takeSnap s).cfg = s.cfg := rfl
@[simp] theorem takeSnap_env : (takeSnap s).env = s.env := rfl
@[simp] theorem takeSnap_trace : (takeSnap s).trace = s.trace := rfl
@[simp] theorem takeSnap_freeCtr : (takeSnap s).freeCtr = s.freeCtr := rfl

/-! ### `countPoll` -/

@[simp] theorem countPoll_pc : (countPoll s).pc = s.pc := rfl
@[simp] theorem countPoll_busy : (countPoll s).busy = s.busy := rfl
@[simp] theorem countPoll_result : (countPoll s).result = s.result := rfl
@[simp] theorem countPoll_snap : (countPoll s).snap = s.snap := rfl
@[simp] theorem countPoll_cmd : (countPoll s).cmd = s.cmd := rfl
@[simp] theorem countPoll_ctl : (countPoll s).ctl = s.ctl := rfl
@[simp] theorem countPoll_st : (countPoll s).st = s.st := rfl
@[simp] theorem countPoll_gp : (countPoll s).gp = s.gp := rfl
@[simp] theorem countPoll_blk : (countPoll s).blk = s.blk := rfl
@[simp] theorem countPoll_n : (countPoll s).n = s.n := rfl
@[simp] theorem countPoll_w : (countPoll s).w = s.w := rfl
@[simp] theorem countPoll_polls : (countPoll s).polls = s.polls + 1 := rfl
@[simp] theorem countPoll_statReg : (countPoll s).statReg = s.statReg := rfl
@[simp] theorem countPoll_ctrlReg : (countPoll s).ctrlReg = s.ctrlReg := rfl
@[simp] theorem countPoll_gpioReg : (countPoll s).gpioReg = s.gpioReg := rfl
@[simp] theorem countPoll_fifo : (countPoll s).fifo = s.fifo := rfl
@[simp] theorem countPoll_winMapped : (countPoll s).winMapped = s.winMapped := rfl
@[simp] theorem countPoll_image : (countPoll s).image = s.image := rfl
@[simp] theorem countPoll_imgPos : (countPoll s).imgPos = s.imgPos := rfl
@[simp] theorem countPoll_imgPlan : (countPoll s).imgPlan = s.imgPlan := rfl
@[simp] theorem countPoll_cmdPort : (countPoll s).cmdPort = s.cmdPort := rfl
@[simp] theorem countPoll_cfg : (countPoll s).cfg = s.cfg := rfl
@[simp] theorem countPoll_env : (countPoll s).env = s.env := rfl
@[simp] theorem countPoll_trace : (countPoll s).trace = s.trace := rfl
@[simp] theorem countPoll_freeCtr : (countPoll s).freeCtr = s.freeCtr := rfl

/-! ### `storeBlock` -/

@[simp] theorem storeBlock_pc (c : List Byte) : (storeBlock c s).pc = s.pc := rfl
@[simp] theorem storeBlock_busy (c : List Byte) : (storeBlock c s).busy = s.busy := rfl
@[simp] theorem storeBlock_result (c : List Byte) : (storeBlock c s).result = s.result := rfl
@[simp] theorem storeBlock_snap (c : List Byte) : (storeBlock c s).snap = s.snap := rfl
@[simp] theorem storeBlock_cmd (c : List Byte) : (storeBlock c s).cmd = s.cmd := rfl
@[simp] theorem storeBlock_ctl (c : List Byte) : (storeBlock c s).ctl = s.ctl := rfl
@[simp] theorem storeBlock_st (c : List Byte) : (storeBlock c s).st = s.st := rfl
@[simp] theorem storeBlock_gp (c : List Byte) : (storeBlock c s).gp = s.gp := rfl
@[simp] theorem storeBlock_blk (c : List Byte) : (storeBlock c s).blk = fillBlock c := rfl
@[simp] theorem storeBlock_n (c : List Byte) : (storeBlock c s).n = BitVec.ofNat 3 c.length := rfl
@[simp] theorem storeBlock_w (c : List Byte) : (storeBlock c s).w = pack4 (fillBlock c) := rfl
@[simp] theorem storeBlock_polls (c : List Byte) : (storeBlock c s).polls = s.polls := rfl
@[simp] theorem storeBlock_statReg (c : List Byte) : (storeBlock c s).statReg = s.statReg := rfl
@[simp] theorem storeBlock_ctrlReg (c : List Byte) : (storeBlock c s).ctrlReg = s.ctrlReg := rfl
@[simp] theorem storeBlock_gpioReg (c : List Byte) : (storeBlock c s).gpioReg = s.gpioReg := rfl
@[simp] theorem storeBlock_fifo (c : List Byte) : (storeBlock c s).fifo = s.fifo := rfl
@[simp] theorem storeBlock_winMapped (c : List Byte) : (storeBlock c s).winMapped = s.winMapped := rfl
@[simp] theorem storeBlock_image (c : List Byte) : (storeBlock c s).image = s.image := rfl
@[simp] theorem storeBlock_imgPos (c : List Byte) : (storeBlock c s).imgPos = s.imgPos := rfl
@[simp] theorem storeBlock_imgPlan (c : List Byte) : (storeBlock c s).imgPlan = s.imgPlan := rfl
@[simp] theorem storeBlock_cmdPort (c : List Byte) : (storeBlock c s).cmdPort = s.cmdPort := rfl
@[simp] theorem storeBlock_cfg (c : List Byte) : (storeBlock c s).cfg = s.cfg := rfl
@[simp] theorem storeBlock_env (c : List Byte) : (storeBlock c s).env = s.env := rfl
@[simp] theorem storeBlock_trace (c : List Byte) : (storeBlock c s).trace = s.trace := rfl
@[simp] theorem storeBlock_freeCtr (c : List Byte) : (storeBlock c s).freeCtr = s.freeCtr := rfl

/-! ### `blockReset` -/

@[simp] theorem blockReset_pc : (blockReset s).pc = State.reset.pc := rfl
@[simp] theorem blockReset_busy : (blockReset s).busy = State.reset.busy := rfl
@[simp] theorem blockReset_result : (blockReset s).result = State.reset.result := rfl
@[simp] theorem blockReset_snap : (blockReset s).snap = State.reset.snap := rfl
@[simp] theorem blockReset_cmd : (blockReset s).cmd = State.reset.cmd := rfl
@[simp] theorem blockReset_ctl : (blockReset s).ctl = State.reset.ctl := rfl
@[simp] theorem blockReset_st : (blockReset s).st = State.reset.st := rfl
@[simp] theorem blockReset_gp : (blockReset s).gp = State.reset.gp := rfl
@[simp] theorem blockReset_blk : (blockReset s).blk = State.reset.blk := rfl
@[simp] theorem blockReset_n : (blockReset s).n = State.reset.n := rfl
@[simp] theorem blockReset_w : (blockReset s).w = State.reset.w := rfl
@[simp] theorem blockReset_polls : (blockReset s).polls = State.reset.polls := rfl
@[simp] theorem blockReset_statReg : (blockReset s).statReg = s.statReg := rfl
@[simp] theorem blockReset_ctrlReg : (blockReset s).ctrlReg = s.ctrlReg := rfl
@[simp] theorem blockReset_gpioReg : (blockReset s).gpioReg = s.gpioReg := rfl
@[simp] theorem blockReset_fifo : (blockReset s).fifo = s.fifo := rfl
@[simp] theorem blockReset_winMapped : (blockReset s).winMapped = s.winMapped := rfl
@[simp] theorem blockReset_image : (blockReset s).image = s.image := rfl
@[simp] theorem blockReset_imgPos : (blockReset s).imgPos = s.imgPos := rfl
@[simp] theorem blockReset_imgPlan : (blockReset s).imgPlan = s.imgPlan := rfl
@[simp] theorem blockReset_cmdPort : (blockReset s).cmdPort = s.cmdPort := rfl
@[simp] theorem blockReset_cfg : (blockReset s).cfg = s.cfg := rfl
@[simp] theorem blockReset_env : (blockReset s).env = s.env := rfl
@[simp] theorem blockReset_trace : (blockReset s).trace = State.reset.trace := rfl
@[simp] theorem blockReset_freeCtr : (blockReset s).freeCtr = s.freeCtr := rfl

end Sys2Proof.Machine
end

