-- ==== Sys2Proof/Laws/Ops.lean ====
section
/-! SUPPORT. What each shared operation can do, said once: if it answers a next state, then which. -/

namespace Sys2Proof.Machine

variable {s t : State}

/-! ### Completion and acceptance -/

/-- An accepting step ends in a refusal with result 2 or 3, or at the command's first `pc`. -/
theorem acceptStep_next {word : Halfword} {b : Bool} {entry : Major} :
    acceptStep word b entry s = .next t ↔
      s.pc.minor = .m0 ∧
      ((s.winMapped = false ∧ t = finish .registerAccessUnavailable (latchCommand word s)) ∨
       (s.winMapped = true ∧ b = false ∧ t = finish .invalidFieldValue (latchCommand word s)) ∨
       (s.winMapped = true ∧ b = true ∧ t = goto entry .m0 (latchCommand word s))) := by
  unfold acceptStep acceptCommand
  cases s.pc.minor <;> cases s.winMapped <;> cases b <;> simp [eq_comm]

/-- An error leaves a nonzero code, and every result code is between 1 and 7. -/
theorem resultCode_range (r : ResultKind) : 1 ≤ (resultCode r).toNat ∧ (resultCode r).toNat ≤ 7 := by
  cases r <;> decide

/-! ### Read-modify-write -/

/-- `write_control_field`: rejected, or the read half, or the write half. -/
theorem controlFieldStep_next {f : CtrlField} {val : Nat} {g k : State → State} :
    controlFieldStep f val g k s = .next t ↔
      (fitsField (ctrlDesc f) val = false ∧ t = finish .invalidFieldValue s) ∨
      (fitsField (ctrlDesc f) val = true ∧ s.pc.minor = .m0 ∧ t = g (readCtrl s)) ∨
      (fitsField (ctrlDesc f) val = true ∧ s.pc.minor = .m1 ∧
        t = k (writeCtrl (insertField (ctrlDesc f) s.ctl val) s)) := by
  unfold controlFieldStep
  cases fitsField (ctrlDesc f) val <;> cases s.pc.minor <;> simp [eq_comm]

/-- `write_status_mode`: rejected, or the read half, or the write half. -/
theorem statusModeStep_next {val : Nat} {g k : State → State} :
    statusModeStep val g k s = .next t ↔
      (fitsField modeDesc val = false ∧ t = finish .invalidFieldValue s) ∨
      (fitsField modeDesc val = true ∧ s.pc.minor = .m0 ∧ t = g (readStat s)) ∨
      (fitsField modeDesc val = true ∧ s.pc.minor = .m1 ∧
        t = k (writeStat (insertField modeDesc s.st val) s)) := by
  unfold statusModeStep
  cases fitsField modeDesc val <;> cases s.pc.minor <;> simp [eq_comm]

/-! ### Reports -/

/-- One of the three reads of a report. -/
theorem reportStep_next {done : State → State} :
    reportStep done s = .next t ↔
      (s.pc.minor = .m0 ∧ t = goto s.pc.major .m1 (readStat s)) ∨
      (s.pc.minor = .m1 ∧ t = goto s.pc.major .m2 (readCtrl s)) ∨
      (s.pc.minor = .m2 ∧ t = done (takeSnap (readGpio s))) := by
  unfold reportStep
  cases s.pc.minor <;> simp [eq_comm]

/-! ### Waits -/

/-- One pass of a wait in the baseline. -/
theorem waitStep_next_baseline {m : BitVec 3} {done : State → State} (h : s.cfg.pollLimit = none) :
    waitStep m done s = .next t ↔
      s.pc.minor = .m0 ∧
      ((modeOf s.statReg = m ∧ t = done (readStat s)) ∨ (modeOf s.statReg ≠ m ∧ t = readStat s)) := by
  unfold waitStep
  cases s.pc.minor <;> simp only [h, reduceCtorEq, false_and]
  split <;> simp_all [eq_comm]

/-- One pass of a wait in the hardened variant. -/
theorem waitStep_next_hardened {m : BitVec 3} {done : State → State} {limit : Nat}
    (h : s.cfg.pollLimit = some limit) :
    waitStep m done s = .next t ↔
      s.pc.minor = .m0 ∧
      ((modeOf s.statReg = m ∧ t = done (countPoll (readStat s))) ∨
       (modeOf s.statReg ≠ m ∧ s.polls + 1 = limit ∧
          t = finish .configurationTimedOut (countPoll (readStat s))) ∨
       (modeOf s.statReg ≠ m ∧ s.polls + 1 ≠ limit ∧ t = countPoll (readStat s))) := by
  unfold waitStep
  cases s.pc.minor <;> simp only [h, reduceCtorEq, false_and]
  by_cases hm : modeOf s.statReg = m <;> by_cases hl : s.polls + 1 = limit <;> simp [hm, hl, eq_comm]

/-! ### The image port and the loader -/

/-- `ImgRead()`: an error, or at most 4 bytes, the next of the image. It touches only the position, the
plan and the trace. -/
theorem imgRead_cases (s : State) :
    (∃ rest, s.imgPlan = .fail :: rest ∧
      imgRead s = (.err, { s with imgPlan := rest, trace := s.trace ++ [.imgErr] })) ∨
    (∃ (c : List Byte) (plan : List ImgPlan) (k : Nat), k ≤ 4 ∧ c = (s.image.drop s.imgPos).take k ∧
      c.length ≤ 4 ∧
      ((s.imgPlan = [] ∧ plan = [] ∧ k = 4) ∨ ∃ j : Fin 5, j.val = k ∧ s.imgPlan = .atMost j :: plan) ∧
      imgRead s = (.bytes c, { s with
        imgPlan := plan, imgPos := s.imgPos + c.length, trace := s.trace ++ [.img c] })) := by
  unfold imgRead
  match h : s.imgPlan with
  | [] =>
    refine .inr ⟨_, [], 4, le_refl 4, rfl, by simp, .inl ⟨rfl, rfl, rfl⟩, ?_⟩
    simp [imgDeliver, ← h]
  | .atMost k :: rest =>
    have hk := k.isLt
    refine .inr ⟨_, rest, k.val, by omega, rfl, by simp; omega, .inr ⟨k, rfl, rfl⟩, ?_⟩
    simp [imgDeliver]
  | .fail :: rest => exact .inl ⟨rest, rfl, rfl⟩

/-- The fetch step: the image source failed; or a full block; or the end; or a short block, padded or
rejected. -/
theorem fetchStep_cases (done : State → State) (s : State) :
    (∃ u, imgRead s = (.err, u) ∧ fetchStep done s = finish .imageSourceUnavailable u) ∨
    (∃ c u, imgRead s = (.bytes c, u) ∧
      ((c.length = 4 ∧ fetchStep done s = goto s.pc.major .m1 (storeBlock c u)) ∨
       (c.length = 0 ∧ fetchStep done s = done (storeBlock c u)) ∨
       (c.length ≠ 0 ∧ c.length ≠ 4 ∧ s.cfg.shortBlockPolicy = .zeroPad ∧
          fetchStep done s = goto s.pc.major .m1 (storeBlock c u)) ∨
       (c.length ≠ 0 ∧ c.length ≠ 4 ∧ s.cfg.shortBlockPolicy = .reject ∧
          fetchStep done s = finish .malformedImage (storeBlock c u)))) := by
  unfold fetchStep
  rcases hr : imgRead s with ⟨_ | c, u⟩
  · rename_i c
    refine .inr ⟨c, u, rfl, ?_⟩
    by_cases h4 : c.length = 4
    · exact .inl ⟨h4, by simp [h4]⟩
    by_cases h0 : c.length = 0
    · exact .inr (.inl ⟨h0, by simp [h0]⟩)
    cases hp : s.cfg.shortBlockPolicy
    · exact .inr (.inr (.inl ⟨h0, h4, rfl, by simp [h4, h0]⟩))
    · exact .inr (.inr (.inr ⟨h0, h4, rfl, by simp [h4, h0]⟩))
  · exact .inl ⟨u, rfl, rfl⟩

/-- The write step. -/
theorem writeStep_cases (done : State → State) (s : State) :
    (s.n = 4 ∧ writeStep done s = goto s.pc.major .m0 (writeData s.w s)) ∨
    (s.n ≠ 4 ∧ writeStep done s = done (writeData s.w s)) := by
  unfold writeStep
  by_cases h : s.n = 4
  · exact .inl ⟨h, if_pos h⟩
  · exact .inr ⟨h, if_neg h⟩

/-- One step of a load. -/
theorem loadStep_next {done : State → State} :
    loadStep done s = .next t ↔
      (s.pc.minor = .m0 ∧ t = fetchStep done s) ∨ (s.pc.minor = .m1 ∧ t = writeStep done s) := by
  unfold loadStep
  cases s.pc.minor <;> simp [eq_comm]

/-! ### Moves of the environment -/

/-- A move changes neither the parameters nor the schedule. -/
theorem applyMove_cfg_env (m : EnvMove) (s : State) :
    (applyMove s m).cfg = s.cfg ∧ (applyMove s m).env = s.env := by
  cases m <;> simp [applyMove]
  split <;> simp

/-- A property that every move keeps is kept by the moves of a gap. -/
theorem applyMoves_induct {P : State → Prop} (ms : List EnvMove) (s : State)
    (hm : ∀ m ∈ ms, ∀ u, P u → P (applyMove u m)) (h : P s) : P (applyMoves ms s) := by
  unfold applyMoves
  induction ms generalizing s with
  | nil => exact h
  | cons m rest ih =>
    exact ih _ (fun m' hm' => hm m' (List.mem_cons_of_mem _ hm')) (hm m List.mem_cons_self s h)

/-- A property that every move keeps, and that does not look at the schedule, is kept by the gap before a
step. -/
theorem applyEnv_induct {P : State → Prop} (s : State)
    (hm : ∀ ms ∈ s.env, ∀ m ∈ ms, ∀ u, P u → P (applyMove u m))
    (he : ∀ u rest, P u → P { u with env := rest }) (h : P s) : P (applyEnv s) := by
  unfold applyEnv
  match henv : s.env with
  | [] => exact h
  | ms :: rest =>
    exact applyMoves_induct ms _ (hm ms (by simp [henv])) (he s rest h)

/-- The gap changes no parameter. -/
@[simp] theorem applyEnv_cfg (s : State) : (applyEnv s).cfg = s.cfg := by
  refine applyEnv_induct (P := fun u => u.cfg = s.cfg) s ?_ (fun _ _ h => h) rfl
  intro ms _ m _ u hu
  rw [(applyMove_cfg_env m u).1, hu]

/-- The gap drops the head of the schedule. -/
theorem applyEnv_env (s : State) : (applyEnv s).env = s.env.tail := by
  unfold applyEnv
  match henv : s.env with
  | [] => simp [henv]
  | ms :: rest =>
    refine applyMoves_induct (P := fun u => u.env = rest) ms _ ?_ rfl
    intro m _ u hu
    rw [(applyMove_cfg_env m u).2, hu]

/-- With an empty schedule the gap does nothing. -/
theorem applyEnv_of_nil (h : s.env = []) : applyEnv s = s := by
  unfold applyEnv; rw [h]

end Sys2Proof.Machine
end

