-- ==== Sys2Proof/Laws/Cycle.lean ====
section
/-! SUPPORT. What one step of the block is at each kind of major step: the shared operation it is, and
what follows it. Together with Laws/Ops.lean this says everything a step can do. -/

namespace Sys2Proof.Machine

/-- What the sequence does when a major step is over (R165; a command ends with `Ok`). -/
def afterMajor : Major → State → State
  | .run1 => goto .run2 .m0
  | .run2 => goto .run3 .m0
  | .run3 => enterWait .run4
  | .run4 => goto .run5 .m0
  | .run5 => goto .run6 .m0
  | .run6 => enterWait .run7
  | .run7 => goto .run8 .m0
  | .run8 => goto .run9 .m0
  | .run9 => enterWait .run10
  | .run10 => goto .run11a .m0
  | .run11a => goto .run11b .m0
  | .run11b => goto .run12 .m0
  | .idle | .run12 | .cmdReport | .cmdSetf | .cmdReset | .cmdLoad => finish .ok

/-- The field and value of a read-modify-write of CTRL, at the majors that hold one (R165, R27). -/
def fieldAt (s : State) : Option (CtrlField × Nat) :=
  match s.pc.major with
  | .run2 => some (.ctrlEn, 1)
  | .run3 => some (.nconfigpull, 1)
  | .run5 => some (.cdratio, s.cfg.cdratioConst.toNat)
  | .run6 => some (.nconfigpull, 0)
  | .run8 => some (.axicfgen, 1)
  | .run11a => some (.axicfgen, 0)
  | .run11b => some (.ctrlEn, 0)
  | .cmdSetf =>
    match decodeCmd s.cmd with
    | some (.setCtrlEn val) => some (.ctrlEn, val.toNat)
    | some (.setNconfigpull val) => some (.nconfigpull, val.toNat)
    | some (.setCdratio val) => some (.cdratio, val.toNat)
    | some (.setAxicfgen val) => some (.axicfgen, val.toNat)
    | _ => none
  | _ => none

/-- The mode a wait awaits (R165). -/
def awaited : Major → Option (BitVec 3)
  | .run4 => some 1
  | .run7 => some 2
  | .run10 => some 4
  | _ => none

/-- A command word of the map is the sum of its opcode and its operand. -/
theorem word_eq_cmd16 (w : Halfword) (h : (w.extractLsb' 8 4 : BitVec 4) = 0) :
    w = cmd16 (w.extractLsb' 12 4) (w.extractLsb' 0 8) := by
  have hb : ∀ i (hi : i < 4), w[8 + i] = false := by
    intro i hi
    have := congrArg (fun v : BitVec 4 => v[i]) h
    rw [← BitVec.getLsbD_eq_getElem]
    simpa using this
  have h0 := hb 0 (by omega)
  have h1 := hb 1 (by omega)
  have h2 := hb 2 (by omega)
  have h3 := hb 3 (by omega)
  ext i hi
  interval_cases i <;> simp_all [cmd16]

/-- The word of a decoded command is the word it was decoded from. -/
theorem cmdWord_of_decodeCmd {w : Halfword} {i : Instr} (h : decodeCmd w = some i) : cmdWord i = w := by
  unfold decodeCmd at h
  simp only at h
  split at h
  · cases h
  rename_i h0
  rw [word_eq_cmd16 w (by simpa using h0)]
  repeat' split at h
  all_goals first
    | (cases h; done)
    | (injection h with h; subst h; simp_all [cmdWord, encode, encodeCmd])

/-- The first major step of a command (R210). -/
def entryMajor : Instr → Major
  | .reportStatus => .cmdReport
  | .runConfiguration => .run1
  | .loadBitstream => .cmdLoad
  | .reset => .cmdReset
  | _ => .cmdSetf

/-- What a decoded command word is: one of the eight commands. -/
theorem decodeCmd_command {w : Halfword} {i : Instr} (h : decodeCmd w = some i) :
    i = .reportStatus ∨ i = .runConfiguration ∨ i = .loadBitstream ∨ i = .reset ∨
    ∃ val, i = .setCtrlEn val ∨ i = .setNconfigpull val ∨ i = .setCdratio val ∨ i = .setAxicfgen val := by
  unfold decodeCmd at h
  simp only at h
  repeat' split at h
  all_goals first
    | (cases h; done)
    | (injection h with h; subst h; simp)

variable {s t : State}

/-- In IDLE the meaning of a command is its accepting step. -/
theorem exec_idle {w : Halfword} {i : Instr} (hd : decodeCmd w = some i) (hi : s.pc.major = .idle) :
    exec i s = acceptStep w (valueFits i) (entryMajor i) s := by
  have hw := cmdWord_of_decodeCmd hd
  rcases decodeCmd_command hd with rfl | rfl | rfl | rfl | ⟨val, rfl | rfl | rfl | rfl⟩ <;>
    simp [exec, execReportStatus, execRunConfiguration, execLoadBitstream, execReset, execSetCtrlEn,
      execSetNconfigpull, execSetCdratio, execSetAxicfgen, setterStep, hi, hw, valueFits, entryMajor]

/-- The accepting step keeps the invariant's link between `cmd` and `pc`: the command entered is the one
in progress. -/
theorem inProgress_entry {w : Halfword} {i : Instr} (hd : decodeCmd w = some i)
    (hp : s.pc.major = entryMajor i) (hc : s.cmd = w) : inProgress s = some i := by
  subst hc
  rcases decodeCmd_command hd with rfl | rfl | rfl | rfl | ⟨val, rfl | rfl | rfl | rfl⟩ <;>
    simp [inProgress, hp, entryMajor, hd]

/-- At a report. -/
theorem blockStep_report (h : s.pc.major = .run1 ∨ s.pc.major = .run12 ∨ s.pc.major = .cmdReport) :
    blockStep s = reportStep (afterMajor s.pc.major) s := by
  rcases h with h | h | h <;>
    simp [blockStep, inProgress, exec, execRunConfiguration, execReportStatus, afterMajor, h]

/-- At a read-modify-write of CTRL. -/
theorem blockStep_field {f : CtrlField} {val : Nat} (h : fieldAt s = some (f, val)) :
    blockStep s = controlFieldStep f val (goto s.pc.major .m1) (afterMajor s.pc.major) s := by
  unfold fieldAt at h
  split at h
  case h_8 hm =>
    split at h <;> simp only [Option.some.injEq, Prod.mk.injEq, reduceCtorEq] at h
    all_goals
      rename_i val' hd
      obtain ⟨rfl, rfl⟩ := h
      have hw := cmdWord_of_decodeCmd hd
      simp [blockStep, inProgress, exec, execSetCtrlEn, execSetNconfigpull, execSetCdratio,
        execSetAxicfgen, setterStep, afterMajor, hm, hd, hw]
  all_goals
    rename_i hm
    simp only [Option.some.injEq, Prod.mk.injEq, reduceCtorEq] at h
    try obtain ⟨rfl, rfl⟩ := h
    try simp [blockStep, inProgress, exec, execRunConfiguration, afterMajor, hm]

/-- At the command `reset`. -/
theorem blockStep_reset (h : s.pc.major = .cmdReset) :
    blockStep s = statusModeStep 1 (goto .cmdReset .m1) (finish .ok) s := by
  simp [blockStep, inProgress, exec, execReset, h]

/-- At a wait. -/
theorem blockStep_wait {m : BitVec 3} (h : awaited s.pc.major = some m) :
    blockStep s = waitStep m (afterMajor s.pc.major) s := by
  unfold awaited at h
  split at h <;> rename_i hm <;> simp only [Option.some.injEq, reduceCtorEq] at h
  all_goals
    subst h
    simp [blockStep, inProgress, exec, execRunConfiguration, afterMajor, hm]

/-- At a load. -/
theorem blockStep_load (h : s.pc.major = .run9 ∨ s.pc.major = .cmdLoad) :
    blockStep s = loadStep (afterMajor s.pc.major) s := by
  rcases h with h | h <;>
    simp [blockStep, inProgress, exec, execRunConfiguration, execLoadBitstream, afterMajor, h]

/-- A step that answers a next state is one of these: in IDLE a wait for a word, a refusal of an illegal
word, or the acceptance of a command; else a step of a report, a read-modify-write, a wait or a load. -/
theorem blockStep_cases (h : blockStep s = .next t) :
    (s.pc = ⟨.idle, .m0⟩ ∧ s.cmdPort = [] ∧ t = s) ∨
    (∃ w rest, s.pc = ⟨.idle, .m0⟩ ∧ s.cmdPort = w :: rest ∧ decodeCmd w = none ∧
      t = rejectIllegal w { s with cmdPort := rest }) ∨
    (∃ w rest i, s.pc = ⟨.idle, .m0⟩ ∧ s.cmdPort = w :: rest ∧ decodeCmd w = some i ∧
      exec i { s with cmdPort := rest } = .next t) ∨
    ((s.pc.major = .run1 ∨ s.pc.major = .run12 ∨ s.pc.major = .cmdReport) ∧
      reportStep (afterMajor s.pc.major) s = .next t) ∨
    (∃ f val, fieldAt s = some (f, val) ∧
      controlFieldStep f val (goto s.pc.major .m1) (afterMajor s.pc.major) s = .next t) ∨
    (s.pc.major = .cmdReset ∧ statusModeStep 1 (goto .cmdReset .m1) (finish .ok) s = .next t) ∨
    (∃ m, awaited s.pc.major = some m ∧ waitStep m (afterMajor s.pc.major) s = .next t) ∨
    ((s.pc.major = .run9 ∨ s.pc.major = .cmdLoad) ∧ loadStep (afterMajor s.pc.major) s = .next t) := by
  by_cases hi : s.pc.major = .idle
  · simp only [blockStep, hi, if_true, idleStep] at h
    cases hn : s.pc.minor <;> simp only [hn, reduceCtorEq] at h
    have hpc : s.pc = ⟨.idle, .m0⟩ := by rw [← hi, ← hn]
    match hp : s.cmdPort with
    | [] =>
      simp only [hp, Host.Outcome.next.injEq] at h
      exact .inl ⟨hpc, rfl, h.symm⟩
    | w :: rest =>
      simp only [hp] at h
      match hd : decodeCmd w with
      | none =>
        simp only [hd, Host.Outcome.next.injEq] at h
        exact .inr (.inl ⟨w, rest, hpc, rfl, hd, h.symm⟩)
      | some i =>
        simp only [hd] at h
        exact .inr (.inr (.inl ⟨w, rest, i, hpc, rfl, hd, h⟩))
  · iterate 3 right
    cases hf : fieldAt s with
    | some p => exact .inr (.inl ⟨p.1, p.2, rfl, blockStep_field hf ▸ h⟩)
    | none =>
      cases hm : s.pc.major <;> simp only [hm, reduceCtorEq, not_true_eq_false] at hi
      case run1 | run12 | cmdReport =>
        left
        rw [blockStep_report (by simp [hm]), hm] at h
        exact ⟨by simp, h⟩
      case run4 | run7 | run10 =>
        iterate 3 right
        left
        refine ⟨_, rfl, ?_⟩
        rw [blockStep_wait (by rw [hm]; rfl), hm] at h
        exact h
      case run9 | cmdLoad =>
        iterate 4 right
        rw [blockStep_load (by simp [hm]), hm] at h
        exact ⟨by simp, h⟩
      case cmdReset =>
        iterate 2 right
        left
        exact ⟨rfl, blockStep_reset hm ▸ h⟩
      case cmdSetf =>
        exfalso
        simp only [fieldAt, hm] at hf
        simp only [blockStep, inProgress, hm] at h
        split at hf <;> simp_all
      all_goals simp [fieldAt, hm] at hf

end Sys2Proof.Machine
end

