-- ==== Sys2Proof/Laws/PerInstr.lean ====
section
/-! SUPPORT. For each operation: its encoding matches its row of spec/opcode_table.json. -/

namespace Sys2Proof.Laws.TableRow

/-- Format, match and mask of the operation's row in spec/opcode_table.json (R103, R106, R113). -/
def row : Instr → Format × Halfword × Halfword
  | .reportStatus => (.cmd16, 0x1000, 0xFFFF)
  | .runConfiguration => (.cmd16, 0x2000, 0xFFFF)
  | .loadBitstream => (.cmd16, 0x3000, 0xFFFF)
  | .setCtrlEn _ => (.cmd16, 0x4000, 0xFF00)
  | .setNconfigpull _ => (.cmd16, 0x5000, 0xFF00)
  | .setCdratio _ => (.cmd16, 0x6000, 0xFF00)
  | .setAxicfgen _ => (.cmd16, 0x7000, 0xFF00)
  | .reset => (.cmd16, 0x8000, 0xFFFF)
  | .readStatus => (.bus16, 0x0000, 0xFFFF)
  | .writeStatusMode _ => (.bus16, 0x8000, 0xFFFF)
  | .readControl => (.bus16, 0x1004, 0xFFFF)
  | .writeControlField _ _ => (.bus16, 0x9004, 0xFFFF)
  | .readGpioInterruptStatus => (.bus16, 0x1840, 0xFFFF)
  | .dataPortWrite _ => (.bus16, 0xE000, 0xFFFF)

/-- The first word of the encoding is in the format of the row and matches it under its mask. -/
def Statement (i : Instr) : Prop :=
  (encode i).format = (row i).1 ∧ (encode i).first &&& (row i).2.2 = (row i).2.1

theorem reportStatus : Statement .reportStatus := ⟨rfl, rfl⟩
theorem runConfiguration : Statement .runConfiguration := ⟨rfl, rfl⟩
theorem loadBitstream : Statement .loadBitstream := ⟨rfl, rfl⟩

/-- Under the mask of a setter only its opcode is left of its word. -/
theorem cmd16_opcode (op : BitVec 4) (val : BitVec 8) :
    cmd16 op val &&& 0xFF00 = op.setWidth 16 <<< 12 := by
  ext i hi
  interval_cases i <;> simp [cmd16]

theorem setCtrlEn (val : BitVec 8) : Statement (.setCtrlEn val) := ⟨rfl, cmd16_opcode 4 val⟩
theorem setNconfigpull (val : BitVec 8) : Statement (.setNconfigpull val) := ⟨rfl, cmd16_opcode 5 val⟩
theorem setCdratio (val : BitVec 8) : Statement (.setCdratio val) := ⟨rfl, cmd16_opcode 6 val⟩
theorem setAxicfgen (val : BitVec 8) : Statement (.setAxicfgen val) := ⟨rfl, cmd16_opcode 7 val⟩
theorem reset : Statement .reset := ⟨rfl, rfl⟩
theorem readStatus : Statement .readStatus := ⟨rfl, rfl⟩
theorem writeStatusMode (val : Nat) : Statement (.writeStatusMode val) :=
  ⟨rfl, (by decide : tagWriteStatus &&& 0xFFFF = 0x8000)⟩
theorem readControl : Statement .readControl := ⟨rfl, rfl⟩
theorem writeControlField (f : CtrlField) (val : Nat) : Statement (.writeControlField f val) :=
  ⟨rfl, (by decide : tagWriteControl &&& 0xFFFF = 0x9004)⟩
theorem readGpioInterruptStatus : Statement .readGpioInterruptStatus := ⟨rfl, rfl⟩
theorem dataPortWrite (word : BitVec 32) : Statement (.dataPortWrite word) :=
  ⟨rfl, (by decide : tagWriteData &&& 0xFFFF = 0xE000)⟩

end Sys2Proof.Laws.TableRow
end

