-- ==== Sys2Proof/Tests/Slice0.lean ====
section
/-! SUPPORT. Tests, with expected values written out from the spec's encodings and from its
`95_test_vectors.md`, and a witness for the hypotheses of every obligation that has some. -/

namespace Sys2Proof.Tests.Slice0

open Sys2Proof Sys2Proof.Machine

/-- The answer is a next state that passes the check. -/
def nextIs (o : StepResult) (check : State → Bool) : Bool :=
  match o with
  | .next t => check t
  | _ => false

/-- In IDLE after reset, with this word offered. -/
def offered (w : Halfword) : State := { State.reset with cmdPort := [w] }

/-- In the middle of a command with this word, at `(major, minor)`. -/
def inCommand (w : Halfword) (major : Major) (minor : Minor) : State :=
  { State.reset with pc := ⟨major, minor⟩, busy := true, cmd := w }

/-- The hardened variant, `POLL_LIMIT = Some 3` (program P3). -/
def hardened (s : State) : State := { s with cfg := { s.cfg with pollLimit := some 3 } }

/-- The strict loader, `SHORT_BLOCK_POLICY = Reject` (program P6). -/
def strict (s : State) : State := { s with cfg := { s.cfg with shortBlockPolicy := .reject } }

/-! ### Well-formedness refuses ill-formed operations -/

theorem test_wellFormed_refuses_wide_mode : (Instr.writeStatusMode 256).wellFormed = false := by decide

theorem test_wellFormed_refuses_wide_field_value :
    (Instr.writeControlField .cdratio 256).wellFormed = false := by decide

theorem test_wellFormed_admits_out_of_range_byte :
    (Instr.writeControlField .ctrlEn 255).wellFormed = true ∧ (Instr.writeStatusMode 8).wellFormed = true := by
  decide

/-! ### Decoding, from words written out bit by bit from R102, R103 and R106 -/

theorem test_decode_commands :
    decodeCmd 0b0001_0000_00000000 = some .reportStatus ∧
    decodeCmd 0b0010_0000_00000000 = some .runConfiguration ∧
    decodeCmd 0b0011_0000_00000000 = some .loadBitstream ∧
    decodeCmd 0b1000_0000_00000000 = some .reset := by decide

theorem test_decode_setters :
    decodeCmd 0b0100_0000_00000010 = some (.setCtrlEn 2) ∧
    decodeCmd 0b0101_0000_00000001 = some (.setNconfigpull 1) ∧
    decodeCmd 0b0110_0000_00000100 = some (.setCdratio 4) ∧
    decodeCmd 0b0111_0000_10000001 = some (.setAxicfgen 0x81) := by decide

/-- The illegal rows of table 2.6. -/
theorem test_decode_illegal_words :
    ([0x0000, 0x9000, 0xF000, 0xFFFF, 0x1001, 0x8001, 0x4100, 0x4101, 0x2F00] : List Halfword).map
      decodeCmd = List.replicate 9 none := by decide

/-- dir, rng, size and offset of R106; the operand words are the model's own (log 14). -/
theorem test_decode_micro_operations :
    decodeBus 0b0_0_00_000000000000 0 0 = some .readStatus ∧
    decodeBus 0b1_0_00_000000000000 0x0007 0 = some (.writeStatusMode 7) ∧
    decodeBus 0b0_0_01_000000000100 0 0 = some .readControl ∧
    decodeBus 0b1_0_01_000000000100 0x0203 0 = some (.writeControlField .cdratio 3) ∧
    decodeBus 0b0_0_01_100001000000 0 0 = some .readGpioInterruptStatus ∧
    decodeBus 0b1_1_10_000000000000 0x0201 0x0403 = some (.dataPortWrite 0x04030201) := by decide

/-- Tags of no row: a word write of CTRL, a byte write of CTRL, a read of DATA, a write of GPIO_INTSTAT,
size code 3. -/
theorem test_decode_tags_of_no_row :
    ([0xA004, 0x8004, 0x6000, 0x9840, 0xF000] : List Halfword).map (fun tag => decodeBus tag 0 0) =
      List.replicate 5 none := by decide

theorem test_decode_rejects_operand_junk :
    decodeBus 0x0000 1 0 = none ∧ decodeBus 0x9004 0x0500 0 = none ∧ decodeBus 0x9004 0x0800 0 = none ∧
    decodeBus 0x8000 0x0100 0 = none ∧ decode ⟨.cmd16, 0x1000, 0, 1⟩ = none := by decide

theorem test_decodeTableWord_commands :
    decodeTableWord 16 0x1000 = some .reportStatus ∧
    decodeTableWord 16 0x2000 = some .runConfiguration ∧
    decodeTableWord 16 0x3000 = some .loadBitstream ∧
    decodeTableWord 16 0x4001 = some (.setCtrlEn 1) ∧
    decodeTableWord 16 0x5001 = some (.setNconfigpull 1) ∧
    decodeTableWord 16 0x6003 = some (.setCdratio 3) ∧
    decodeTableWord 16 0x7001 = some (.setAxicfgen 1) ∧
    decodeTableWord 16 0x8000 = some .reset := by decide

theorem test_decodeTableWord_micro_operations :
    decodeTableWord 16 0x0000 = some .readStatus ∧
    decodeTableWord 16 0x1004 = some .readControl ∧
    decodeTableWord 16 0x9004 = some (.writeControlField .ctrlEn 0) ∧
    decodeTableWord 16 0x1840 = some .readGpioInterruptStatus ∧
    decodeTableWord 48 0x04030201E000 = some (.dataPortWrite 0x04030201) := by decide

/-! ### A word placed for the fetch is what the next step runs -/

/-- A command is accepted (R210). -/
theorem test_fetch_accepts_commands :
    ∀ p ∈ ([(0x1000, .cmdReport), (0x2000, .run1), (0x3000, .cmdLoad), (0x4001, .cmdSetf),
        (0x5001, .cmdSetf), (0x6003, .cmdSetf), (0x7001, .cmdSetf), (0x8000, .cmdReset)] :
        List (Nat × Major)),
      nextIs (step (State.reset.withFetchWord 16 p.1)) (fun t =>
        decide (t.pc = ⟨p.2, .m0⟩ ∧ t.busy = true ∧ t.trace = [.cmd (BitVec.ofNat 16 p.1)])) = true := by
  decide

/-- A micro-operation makes its one transaction (R106). -/
theorem test_fetch_runs_micro_operations :
    nextIs (step (State.reset.withFetchWord 16 0x0000)) (fun t => decide (t.trace = [.rd8 0xFF706000 0])) ∧
    nextIs (step (State.reset.withFetchWord 16 0x1004)) (fun t => decide (t.trace = [.rd16 0xFF706004 0])) ∧
    nextIs (step (State.reset.withFetchWord 16 0x9004)) (fun t => decide (t.trace = [.rd16 0xFF706004 0])) ∧
    nextIs (step (State.reset.withFetchWord 16 0x1840)) (fun t =>
      decide (t.trace = [.rd16 0xFF706840 0, .res 1])) ∧
    nextIs (step (State.reset.withFetchWord 16 0xE000)) (fun t =>
      decide (t.trace = [.wr32 0xFFB90000 0, .res 1])) := by decide

/-! ### One step of each operation -/

/-- R211's example: the packed snapshot is 0x278A (also P1, event 28). -/
theorem test_report_status_snapshot :
    nextIs (exec .reportStatus { inCommand 0x1000 .cmdReport .m2 with
        st := 0x54, ctl := 0x02C0, gpioReg := 0x0002 })
      (fun t => decide (packSnap t.snap = 0x278A ∧ t.result = 1 ∧ t.pc = ⟨.idle, .m0⟩ ∧
        t.busy = false)) = true := by decide

/-- Table 3.4, row 0x1000 with the window unmapped. -/
theorem test_report_status_unmapped :
    nextIs (step { offered 0x1000 with winMapped := false })
      (fun t => decide (t.result = 2 ∧ t.trace = [.cmd 0x1000, .res 2])) = true := by decide

/-- P1, event 10: run step 5 writes 0x02C5. -/
theorem test_run_step5_writes_cdratio :
    nextIs (exec .runConfiguration { inCommand 0x2000 .run5 .m1 with ctl := 0x0205 })
      (fun t => decide (t.ctrlReg = 0x02C5 ∧ t.pc = ⟨.run6, .m0⟩ ∧
        t.trace = [.wr16 0xFF706004 0x02C5])) = true := by decide

/-- P3, event 10: the third unsuccessful read times out. -/
theorem test_run_third_poll_times_out :
    nextIs (exec .runConfiguration (hardened { inCommand 0x2000 .run4 .m0 with statReg := 0x50, polls := 2 }))
      (fun t => decide (t.result = 6 ∧ t.polls = 3 ∧ t.trace = [.rd8 0xFF706000 0x50, .res 6])) = true := by
  decide

/-- Table 3.3, `FF FF FF FF 00`: no residue of the block before. -/
theorem test_load_short_block_has_no_residue :
    nextIs (exec .loadBitstream { inCommand 0x3000 .cmdLoad .m0 with
        blk := ⟨0xFF, 0xFF, 0xFF, 0xFF⟩, n := 4, w := 0xFFFFFFFF
        image := [0xFF, 0xFF, 0xFF, 0xFF, 0x00], imgPos := 4 })
      (fun t => decide (t.w = 0 ∧ t.n = 1 ∧ t.pc = ⟨.cmdLoad, .m1⟩ ∧ t.imgPos = 5)) = true := by decide

/-- P6, event 18: under `Reject` the short block ends the load with result 5. -/
theorem test_load_rejects_short_block :
    nextIs (exec .loadBitstream (strict { inCommand 0x3000 .cmdLoad .m0 with
        image := [0x11, 0x22, 0x33, 0x44, 0x55, 0x66], imgPos := 4 }))
      (fun t => decide (t.result = 5 ∧ t.w = 0x00006655 ∧ t.fifo = [] ∧ t.busy = false)) = true := by decide

/-- R215's example. -/
theorem test_set_ctrl_en_writes :
    nextIs (exec (.setCtrlEn 1) { inCommand 0x4001 .cmdSetf .m1 with ctl := 0x0200 })
      (fun t => decide (t.trace = [.wr16 0xFF706004 0x0201, .res 1] ∧ t.ctrlReg = 0x0201)) = true := by decide

/-- Table 3.4, 0x4002 with the window unmapped: the mapping is checked before the value. -/
theorem test_set_ctrl_en_mapping_before_value :
    nextIs (step { offered 0x4002 with winMapped := false })
      (fun t => decide (t.result = 2 ∧ t.pc = ⟨.idle, .m0⟩ ∧ t.busy = false)) = true := by decide

/-- R216's example. -/
theorem test_set_nconfigpull_writes :
    nextIs (exec (.setNconfigpull 0) { inCommand 0x5000 .cmdSetf .m1 with ctl := 0xABCD })
      (fun t => decide (t.ctrlReg = 0xABC9 ∧ t.result = 1)) = true := by decide

/-- R217's example. -/
theorem test_set_cdratio_writes :
    nextIs (exec (.setCdratio 1) { inCommand 0x6001 .cmdSetf .m1 with ctl := 0x00C0 })
      (fun t => decide (t.ctrlReg = 0x0040 ∧ t.result = 1)) = true := by decide

/-- R217's second example: `set_cdratio 4` gives RES 3 and no access. -/
theorem test_set_cdratio_rejects_four :
    nextIs (step (offered 0x6004)) (fun t => decide (t.trace = [.cmd 0x6004, .res 3])) = true := by decide

/-- R218's example. -/
theorem test_set_axicfgen_writes :
    nextIs (exec (.setAxicfgen 0) { inCommand 0x7000 .cmdSetf .m1 with ctl := 0xFFFF })
      (fun t => decide (t.ctrlReg = 0xFEFF ∧ t.result = 1)) = true := by decide

/-- R219's example and P5: STAT reading 0x54 is written 0x51. -/
theorem test_reset_writes_status :
    nextIs (exec .reset { inCommand 0x8000 .cmdReset .m1 with st := 0x54 })
      (fun t => decide (t.trace = [.wr8 0xFF706000 0x51, .res 1] ∧ t.st = 0x54)) = true := by decide

/-- R121's example. -/
theorem test_read_status :
    nextIs (exec .readStatus { State.reset with statReg := 0x52 })
      (fun t => decide (t.st = 0x52 ∧ decodeMode (modeOf t.st) = .configuring ∧
        extractField mselDesc t.st = 0b01010)) = true := by decide

/-- R124's example. -/
theorem test_read_control :
    nextIs (exec .readControl { State.reset with ctrlReg := 0x03C1 })
      (fun t => decide (extractField (ctrlDesc .cdratio) t.ctl = 3 ∧
        extractField (ctrlDesc .nconfigpull) t.ctl = 0 ∧
        extractField (ctrlDesc .cfgwdth) t.ctl = 1)) = true := by decide

/-- R125's example. -/
theorem test_read_gpio_interrupt_status :
    nextIs (exec .readGpioInterruptStatus { State.reset with gpioReg := 0x0FFD })
      (fun t => decide (t.gp = 0x0FFD ∧ extractField configurationDoneDesc t.gp = 0)) = true := by decide

/-- R126's example. -/
theorem test_data_port_write :
    nextIs (exec (.dataPortWrite 0x04030201) { State.reset with fifo := [7] })
      (fun t => decide (t.fifo = [7, 0x04030201] ∧ t.trace = [.wr32 0xFFB90000 0x04030201])) = true := by
  decide

/-- Table 3.1: unnamed bits are kept. -/
theorem test_write_control_field_keeps_unnamed_bits :
    nextIs (exec (.writeControlField .cdratio 2) { State.reset with pc := ⟨.run5, .m1⟩, ctl := 0xFC3A })
      (fun t => decide (t.ctrlReg = 0xFCBA)) = true := by decide

/-- Table 3.1: `write_control_field(axicfgen, 2)` makes no transaction. -/
theorem test_write_control_field_rejects :
    nextIs (exec (.writeControlField .axicfgen 2) { State.reset with pc := ⟨.run8, .m0⟩, ctrlReg := 5 })
      (fun t => decide (t.trace = [.res 3] ∧ t.result = 3 ∧ t.ctrlReg = 5)) = true := by decide

/-- Table 3.1: `write_status_mode(0)` with 0xFF read writes 0xF8. -/
theorem test_write_status_mode_keeps_msel :
    nextIs (exec (.writeStatusMode 0) { State.reset with pc := ⟨.cmdReset, .m1⟩, st := 0xFF })
      (fun t => decide (t.trace = [.wr8 0xFF706000 0xF8])) = true := by decide

/-- Table 3.1: `write_status_mode(8)` makes no transaction. -/
theorem test_write_status_mode_rejects :
    nextIs (exec (.writeStatusMode 8) { State.reset with pc := ⟨.cmdReset, .m0⟩ })
      (fun t => decide (t.trace = [.res 3] ∧ t.result = 3)) = true := by decide

/-- Table 2.5, the row that sets bit 31. -/
theorem test_pack4_bit31 : pack4 ⟨0x00, 0x00, 0x00, 0x80⟩ = 0x80000000 := by decide

/-- Table 2.9. -/
theorem test_packSnap_rows :
    packSnap (assembleSnap 0xFF 0xFFFF 0xFFFF) = 0x7FFF ∧
    packSnap (assembleSnap 0x00 0xFC3A 0xFFFD) = 0x0000 ∧
    packSnap (assembleSnap 0x54 0x03C1 0x0002) = 0x6F8A := by decide

/-! ### Witnesses: states and operands that meet the hypotheses of the obligations

Each is named after its obligation; where a statement has several clauses, each clause has one. -/

/-- A busy state with its word in `cmd`, a later trace and one more command waiting. -/
def busyWitness (w : Halfword) (major : Major) (minor : Minor) : State :=
  { inCommand w major minor with trace := [.cmd w], cmdPort := [0x1000] }

/-- A schedule that shows mode 0 and changes CTRL, once each. -/
def idleDevice : List (List EnvMove) := [[.showStat 0x50], [], [.showCtrl 0xFFFF, .showStat 0x55]]

theorem witness_DecodeOfEncodeIsTheOperation :
    (Instr.writeControlField .cfgwdth 255).wellFormed = true ∧ (Instr.writeStatusMode 0).wellFormed = true ∧
    (Instr.dataPortWrite 0xFFFFFFFF).wellFormed = true ∧ (Instr.setAxicfgen 255).wellFormed = true := by
  decide

theorem witness_EncodeOfDecodeIsTheWords :
    decode ⟨.bus16, 0x9004, 0x04FF, 0⟩ = some (.writeControlField .cfgwdth 255) ∧
    decode ⟨.cmd16, 0x70FF, 0, 0⟩ = some (.setAxicfgen 255) ∧
    decode ⟨.bus16, 0xE000, 0xFFFF, 0x8000⟩ = some (.dataPortWrite 0x8000FFFF) := by decide

/-- One word for each way to be illegal, at the ends of its range. -/
theorem witness_IllegalCommandWordsAreRefused :
    (∀ w, (offered w).cfg.valid = true ∧ (offered w).env = [] ∧ (offered w).pc = ⟨.idle, .m0⟩ ∧
      (offered w).cmdPort = w :: []) ∧
    ([0x0FFF, 0x9000, 0xF000, 0x4100, 0x1001, 0x80FF] : List Halfword).map decodeCmd =
      List.replicate 6 none :=
  ⟨fun _ => ⟨(by decide : Config.baseline.valid = true), rfl, rfl, rfl⟩, by decide⟩

theorem witness_IllegalCommandWordsAreRefused_legal :
    decodeCmd 0x4002 = some (.setCtrlEn 2) := by decide

theorem witness_InsertedFieldReadsBack :
    fitsField (ctrlDesc .cdratio) 3 = true ∧ fitsField (ctrlDesc .cfgwdth) 1 = true ∧
    CtrlField.axicfgen ≠ CtrlField.cdratio := by decide

theorem witness_WriteControlFieldHalves :
    3 < 4 ∧ 1 < 2 ∧
    (3 ≤ 3 ∧ (busyWitness 0x6003 .cmdSetf .m0).pc.minor = .m0) ∧
    (1 ≤ 1 ∧ (busyWitness 0x4001 .cmdSetf .m1).pc.minor = .m1) := by decide

theorem witness_WriteStatusModeHalves :
    7 < 8 ∧ (7 ≤ 7 ∧ (busyWitness 0x8000 .cmdReset .m0).pc.minor = .m0) ∧
    (0 ≤ 7 ∧ (busyWitness 0x8000 .cmdReset .m1).pc.minor = .m1) := by decide

theorem witness_WriteFieldThenReadControl :
    ∃ s1 s2 s3 : State, let s := busyWitness 0x6003 .cmdSetf .m0
      fitsField (ctrlDesc .cdratio) 3 = true ∧ s.pc.minor = .m0 ∧
      exec (.writeControlField .cdratio 3) s = .next s1 ∧
      exec (.writeControlField .cdratio 3) { s1 with pc := ⟨s1.pc.major, .m1⟩ } = .next s2 ∧
      exec .readControl s2 = .next s3 ∧ CtrlField.ctrlEn ≠ CtrlField.cdratio :=
  ⟨_, _, _, rfl, rfl, rfl, rfl, rfl, by decide⟩

/-- The clauses: illegal, unmapped, out of range, accepted at the greatest value. -/
theorem witness_AcceptanceInTheOrderOfTheChecks :
    (offered 0x4101).cfg.valid = true ∧ (offered 0x4101).env = [] ∧
    (offered 0x4101).pc = ⟨.idle, .m0⟩ ∧ decodeCmd 0x4101 = none ∧
    decodeCmd 0x6004 = some (.setCdratio 4) ∧ valueFits (.setCdratio 4) = false ∧
    decodeCmd 0x6003 = some (.setCdratio 3) ∧ valueFits (.setCdratio 3) = true ∧
    (offered 0x6003).winMapped = true ∧ { offered 0x6004 with winMapped := false }.winMapped = false := by
  decide

theorem witness_AcceptanceInTheOrderOfTheChecks_busy :
    ∃ t, (busyWitness 0x2000 .run1 .m0).env = [] ∧ (busyWitness 0x2000 .run1 .m0).pc.major ≠ .idle ∧
      step (busyWitness 0x2000 .run1 .m0) = .next t :=
  ⟨_, rfl, by decide, rfl⟩

theorem witness_CommandsAreRefusedWhileAnotherIsInProgress :
    State.Inv (busyWitness 0x2000 .run4 .m0) ∧ (busyWitness 0x2000 .run4 .m0).pc.major ≠ .idle ∧
    (encode .reset).format = .cmd16 ∧ inProgress (busyWitness 0x2000 .run4 .m0) ≠ some .reset := by
  decide

theorem witness_ReportStatusSteps :
    (offered 0x1000).pc = ⟨.idle, .m0⟩ ∧ (offered 0x1000).winMapped = true ∧
    { offered 0x1000 with winMapped := false }.winMapped = false ∧
    (busyWitness 0x1000 .cmdReport .m0).pc = ⟨.cmdReport, .m0⟩ ∧
    (busyWitness 0x1000 .cmdReport .m1).pc = ⟨.cmdReport, .m1⟩ ∧
    (busyWitness 0x1000 .cmdReport .m2).pc = ⟨.cmdReport, .m2⟩ := by decide

theorem witness_ReportStatusNeverMutates :
    (offered 0x1000).cfg.valid = true ∧ (offered 0x1000).env = [] ∧ (offered 0x1000).pc = ⟨.idle, .m0⟩ ∧
    (offered 0x1000).winMapped = true ∧ (offered 0x1000).cmdPort = 0x1000 :: [] := by decide

/-- Greatest value, least value out of range, and each of the two steps. -/
theorem witness_SetterSteps :
    (3#8).toNat ≤ 3 ∧ (1#8).toNat ≤ 1 ∧ 3 < (4#8).toNat ∧ 1 < (2#8).toNat ∧
    (offered 0x6003).pc = ⟨.idle, .m0⟩ ∧
    (busyWitness 0x6003 .cmdSetf .m0).cmd = 0x6000 ||| (3#8).setWidth 16 ∧
    (busyWitness 0x6003 .cmdSetf .m0).pc = ⟨.cmdSetf, .m0⟩ ∧
    (busyWitness 0x6003 .cmdSetf .m1).cmd = 0x6000 ||| (3#8).setWidth 16 ∧
    (busyWitness 0x6003 .cmdSetf .m1).pc = ⟨.cmdSetf, .m1⟩ := by decide

theorem witness_SetterChangesOneField :
    (offered 0x6003).cfg.valid = true ∧ (offered 0x6003).env = [] ∧ (offered 0x6003).pc = ⟨.idle, .m0⟩ ∧
    (offered 0x6003).winMapped = true ∧ (offered 0x6003).cmdPort = (0x6000 ||| (3#8).setWidth 16) :: [] ∧
    fitsField (ctrlDesc .cdratio) (3#8).toNat = true := by decide

theorem witness_ResetCommandSteps :
    (busyWitness 0x8000 .cmdReset .m0).pc = ⟨.cmdReset, .m0⟩ ∧
    (busyWitness 0x8000 .cmdReset .m1).pc = ⟨.cmdReset, .m1⟩ := by decide

/-- The clauses of the fetch step: a full block, an empty read, and a short one under each policy, the
last two read with a plan; the source that fails; and the end of a well-behaved image. -/
theorem witness_LoaderFetchStep :
    PortDelivers { busyWitness 0x3000 .cmdLoad .m0 with image := [1, 2, 3, 4, 5] } [1, 2, 3, 4] [] ∧
    PortDelivers { busyWitness 0x2000 .run9 .m0 with image := [1, 2, 3, 4], imgPos := 4 } [] [] ∧
    PortDelivers { busyWitness 0x3000 .cmdLoad .m0 with image := [1, 2], imgPlan := [.atMost 1] } [1] [] ∧
    PortDelivers (strict { busyWitness 0x2000 .run9 .m0 with image := [1, 2, 3, 4], imgPlan := [.atMost 3] })
      [1, 2, 3] [] ∧
    { busyWitness 0x3000 .cmdLoad .m0 with imgPlan := [.fail] }.imgPlan = .fail :: [] ∧
    (strict (busyWitness 0x2000 .run9 .m0)).cfg.shortBlockPolicy = .reject ∧
    (busyWitness 0x3000 .cmdLoad .m0).cfg.shortBlockPolicy = .zeroPad :=
  ⟨.inl ⟨rfl, rfl, rfl⟩, .inl ⟨rfl, rfl, rfl⟩, .inr ⟨1, rfl, rfl⟩, .inr ⟨3, rfl, rfl⟩, rfl, rfl, rfl⟩

theorem witness_LoaderWriteStep :
    (busyWitness 0x3000 .cmdLoad .m1).pc = ⟨.cmdLoad, .m1⟩ ∧ (busyWitness 0x3000 .cmdLoad .m1).n ≠ 4 ∧
    { busyWitness 0x2000 .run9 .m1 with n := 4 }.pc = ⟨.run9, .m1⟩ ∧
    { busyWitness 0x2000 .run9 .m1 with n := 4 }.n = 4 := by decide

/-- Lengths 8 and 6 from the position onward, and under `Reject` length 1. -/
theorem witness_LoadWritesThePackedImage :
    (busyWitness 0x3000 .cmdLoad .m0).cfg.valid = true ∧ (busyWitness 0x3000 .cmdLoad .m0).env = [] ∧
    (busyWitness 0x3000 .cmdLoad .m0).pc = ⟨.cmdLoad, .m0⟩ ∧
    (busyWitness 0x3000 .cmdLoad .m0).imgPlan = [] ∧
    (busyWitness 0x3000 .cmdLoad .m0).cfg.shortBlockPolicy = .zeroPad ∧
    (strict (busyWitness 0x3000 .cmdLoad .m0)).cfg.valid = true ∧
    (strict (busyWitness 0x3000 .cmdLoad .m0)).cfg.shortBlockPolicy = .reject ∧
    ([1, 2, 3, 4] : List Byte).length % 4 = 0 ∧ ([1] : List Byte).length % 4 ≠ 0 := by decide

theorem witness_LoadTouchesOnlyImageAndData :
    ∃ t u, (busyWitness 0x3000 .cmdLoad .m0).pc.major = .cmdLoad ∧
      blockStep (busyWitness 0x3000 .cmdLoad .m0) = .next t ∧
      (busyWitness 0x2000 .run9 .m1).pc.major = .run9 ∧ blockStep (busyWitness 0x2000 .run9 .m1) = .next u :=
  ⟨_, _, rfl, rfl, rfl, rfl⟩

theorem witness_RunReportsFirstAndLast :
    (busyWitness 0x2000 .run1 .m0).pc = ⟨.run1, .m0⟩ ∧ (busyWitness 0x2000 .run1 .m1).pc = ⟨.run1, .m1⟩ ∧
    (busyWitness 0x2000 .run1 .m2).pc = ⟨.run1, .m2⟩ ∧ (busyWitness 0x2000 .run12 .m0).pc = ⟨.run12, .m0⟩ ∧
    (busyWitness 0x2000 .run12 .m1).pc = ⟨.run12, .m1⟩ ∧
    (busyWitness 0x2000 .run12 .m2).pc = ⟨.run12, .m2⟩ := by decide

theorem witness_RunFieldSteps :
    ∀ m ∈ ([.run2, .run3, .run5, .run6, .run8, .run11a, .run11b] : List Major),
      (busyWitness 0x2000 m .m0).pc = ⟨m, .m0⟩ ∧ (busyWitness 0x2000 m .m1).pc = ⟨m, .m1⟩ :=
  fun _ _ => ⟨rfl, rfl⟩

/-- A status that shows the target, and one that shows `Undetermined` instead. -/
theorem witness_BaselineWaitSteps :
    (busyWitness 0x2000 .run4 .m0).cfg.pollLimit = none ∧
    (busyWitness 0x2000 .run4 .m0).pc = ⟨.run4, .m0⟩ ∧
    (0x51 : Byte).extractLsb' 0 3 = (1 : BitVec 3) ∧ (0x55 : Byte).extractLsb' 0 3 ≠ (1 : BitVec 3) := by
  decide

/-- Target seen; the N-th read fails; an earlier one fails. -/
theorem witness_HardenedWaitSteps :
    (hardened (busyWitness 0x2000 .run10 .m0)).cfg.pollLimit = some 3 ∧
    (hardened (busyWitness 0x2000 .run10 .m0)).pc = ⟨.run10, .m0⟩ ∧
    (0x54 : Byte).extractLsb' 0 3 = (4 : BitVec 3) ∧ (0x53 : Byte).extractLsb' 0 3 ≠ (4 : BitVec 3) ∧
    { busyWitness 0x2000 .run10 .m0 with polls := 2 }.polls + 1 = 3 ∧
    { busyWitness 0x2000 .run10 .m0 with polls := 1 }.polls + 1 ≠ 3 := by decide

theorem witness_BaselineWaitEndsOnlyOnTheTarget :
    ∃ t, let s := { busyWitness 0x2000 .run7 .m0 with statReg := 0x52 }
      s.cfg.pollLimit = none ∧ s.pc = ⟨.run7, .m0⟩ ∧ blockStep s = .next t ∧ t.pc ≠ s.pc :=
  ⟨_, rfl, rfl, rfl, by decide⟩

/-- `idleDevice` never shows target 1. -/
theorem idleDevice_never_shows_reset : NeverShows 1 idleDevice := by
  intro ms hms m hm
  simp only [idleDevice, List.mem_cons, List.not_mem_nil, or_false] at hms
  rcases hms with rfl | rfl | rfl <;> simp at hm
  · subst hm
    exact ⟨by simp, fun v hv => by cases hv; decide⟩
  · rcases hm with rfl | rfl
    · exact ⟨by simp, fun v hv => by cases hv⟩
    · exact ⟨by simp, fun v hv => by cases hv; decide⟩

theorem witness_BaselineWaitHangs :
    let s := { busyWitness 0x2000 .run4 .m0 with statReg := 0x54, env := idleDevice }
    s.cfg.valid = true ∧ s.cfg.pollLimit = none ∧ s.pc = ⟨.run4, .m0⟩ ∧
      s.statReg.extractLsb' 0 3 ≠ (1 : BitVec 3) ∧ NeverShows 1 s.env :=
  ⟨by decide, rfl, rfl, by decide, idleDevice_never_shows_reset⟩

theorem witness_HardenedWaitTimesOut :
    let s := hardened { busyWitness 0x2000 .run4 .m0 with statReg := 0x54, env := idleDevice }
    s.cfg.valid = true ∧ s.cfg.pollLimit = some 3 ∧ s.pc = ⟨.run4, .m0⟩ ∧ s.polls = 0 ∧
      s.statReg.extractLsb' 0 3 ≠ (1 : BitVec 3) ∧ NeverShows 1 s.env :=
  ⟨by decide, rfl, rfl, rfl, by decide, idleDevice_never_shows_reset⟩

/-- The clauses: a step inside a run, the step that begins one, the step that ends one. -/
theorem witness_RunWritesComeInOrder_inside :
    ∃ t, let s := busyWitness 0x2000 .run1 .m2
      s.Inv ∧ isRun s.pc.major = true ∧ RunWritesInOrder s.cfg s.pc.major s.trace ∧
      step s = .next t ∧ isRun t.pc.major = true :=
  ⟨_, by decide, rfl, ⟨[], [], [], by decide, .nil, .nil, fun _ => rfl⟩, rfl, rfl⟩

theorem witness_RunWritesComeInOrder_begin :
    ∃ t, blockStep (offered 0x2000) = .next t ∧ (offered 0x2000).pc.major = .idle ∧
      isRun t.pc.major = true :=
  ⟨_, rfl, rfl, rfl⟩

/-- A run of the baseline that has made its seven writes and loaded an empty image. -/
def lastStep : State :=
  { busyWitness 0x2000 .run12 .m2 with
    trace := [.cmd 0x2000, .wr16 0xFF706004 0x0001, .wr16 0xFF706004 0x0005, .wr16 0xFF706004 0x00C5,
      .wr16 0xFF706004 0x00C1, .wr16 0xFF706004 0x01C1, .wr16 0xFF706004 0x00C1, .wr16 0xFF706004 0x00C0] }

theorem witness_RunWritesComeInOrder_end :
    ∃ t, lastStep.Inv ∧ isRun lastStep.pc.major = true ∧
      RunWritesInOrder lastStep.cfg lastStep.pc.major lastStep.trace ∧
      blockStep lastStep = .next t ∧ t.busy = false ∧ t.result = 1 := by
  refine ⟨_, by decide, rfl, ⟨[.wr16 0xFF706004 0x0001, .wr16 0xFF706004 0x0005, .wr16 0xFF706004 0x00C5,
    .wr16 0xFF706004 0x00C1, .wr16 0xFF706004 0x01C1], [.wr16 0xFF706004 0x00C1, .wr16 0xFF706004 0x00C0],
    [], by decide, ?_, ?_, fun _ => rfl⟩, rfl, rfl, rfl⟩
  · exact .cons ⟨_, rfl, by decide⟩ (.cons ⟨_, rfl, by decide⟩ (.cons ⟨_, rfl, by decide⟩
      (.cons ⟨_, rfl, by decide⟩ (.cons ⟨_, rfl, by decide⟩ .nil))))
  · exact .cons ⟨_, rfl, by decide⟩ (.cons ⟨_, rfl, by decide⟩ .nil)

theorem witness_HardenedRunEnds :
    let s := hardened { busyWitness 0x2000 .run1 .m0 with image := [1, 2, 3, 4, 5], env := [[.showStat 0x51]] }
    s.cfg.valid = true ∧ s.cfg.pollLimit = some 3 ∧ s.pc = ⟨.run1, .m0⟩ ∧ s.imgPlan = [] ∧
      Undisturbed s.env := by
  refine ⟨by decide, rfl, rfl, rfl, ?_⟩
  intro ms hms m hm
  simp only [hardened, List.mem_cons, List.not_mem_nil, or_false] at hms
  subst hms
  simp at hm
  subst hm
  simp

/-- P1 with its 8-byte image. -/
def responsive : State :=
  { offered 0x2000 with
    image := [0x01, 0x02, 0x03, 0x04, 0xAA, 0xBB, 0xCC, 0xDD]
    env := List.replicate 8 [] ++ [[.showStat 0x51]] ++ List.replicate 4 [] ++ [[.showStat 0x52]] ++
      List.replicate (2 + loadSteps 8) [] ++ [[.showStat 0x54]] }

theorem witness_RunAgainstResponsiveDevice :
    responsive.cfg.valid = true ∧ responsive.cfg.pollLimit = none ∧
    responsive.cfg.shortBlockPolicy = .zeroPad ∧ responsive.pc = ⟨.idle, .m0⟩ ∧
    responsive.winMapped = true ∧ responsive.cmdPort = 0x2000 :: [] ∧ responsive.imgPlan = [] ∧
    (responsive.image.drop responsive.imgPos).length = 8 ∧
    (0x51 : Byte).extractLsb' 0 3 = (1 : BitVec 3) ∧ (0x52 : Byte).extractLsb' 0 3 = (2 : BitVec 3) ∧
    (0x54 : Byte).extractLsb' 0 3 = (4 : BitVec 3) ∧
    responsive.env = List.replicate 8 [] ++ [[.showStat 0x51]] ++ List.replicate 4 [] ++
      [[.showStat 0x52]] ++
      List.replicate (2 + loadSteps (responsive.image.drop responsive.imgPos).length) [] ++
      [[.showStat 0x54]] := by decide

/-- The clauses: bad parameters; a word that decodes, offered in the gap; a command in progress; no
word. -/
theorem witness_StepRunsTheDecodedOperation :
    { State.reset with cfg := { Config.baseline with csrBase := 2 } }.cfg.valid = false ∧
    State.reset.cfg.valid = true ∧
    (applyEnv { State.reset with env := [[.offerCommand 0x40FF]] }).pc = ⟨.idle, .m0⟩ ∧
    (applyEnv { State.reset with env := [[.offerCommand 0x40FF]] }).cmdPort = 0x40FF :: [] ∧
    decodeCmd 0x40FF = some (.setCtrlEn 255) ∧
    (applyEnv (busyWitness 0x8000 .cmdReset .m1)).pc.major ≠ .idle ∧
    inProgress (applyEnv (busyWitness 0x8000 .cmdReset .m1)) = some .reset ∧
    (applyEnv State.reset).cmdPort = [] := by decide

theorem witness_StepPerformsTheMicroOperation :
    State.Inv (busyWitness 0x6003 .cmdSetf .m1) ∧
    microOpAt (busyWitness 0x6003 .cmdSetf .m1) = some (.writeControlField .cdratio 3) := by decide

/-- The converse clause: a fetch of the loader, and the acceptance of a command. -/
theorem witness_StepPerformsTheMicroOperation_none :
    ∃ t u, State.Inv (busyWitness 0x2000 .run9 .m0) ∧ microOpAt (busyWitness 0x2000 .run9 .m0) = none ∧
      (busyWitness 0x2000 .run9 .m0).pc.major ≠ .idle ∧
      blockStep (busyWitness 0x2000 .run9 .m0) = .next t ∧
      State.Inv (offered 0x8000) ∧ microOpAt (offered 0x8000) = none ∧
      blockStep (offered 0x8000) = .next u :=
  ⟨_, _, by decide, rfl, by decide, rfl, by decide, rfl, rfl⟩

theorem witness_StepKeepsTheInvariant :
    ∃ t, State.Inv { busyWitness 0x2000 .run4 .m0 with env := [[.blockReset]] } ∧
      step { busyWitness 0x2000 .run4 .m0 with env := [[.blockReset]] } = .next t :=
  ⟨_, by decide, rfl⟩

theorem witness_InvariantStatesAlwaysStep :
    State.Inv (hardened (busyWitness 0x2000 .run10 .m0)) ∧
    (hardened (busyWitness 0x2000 .run10 .m0)).cfg.valid = true := by decide

/-- The clauses: busy; idle with a word; idle without one. -/
theorem witness_OneEventPerStep :
    ∃ t u v, State.Inv (busyWitness 0x1000 .cmdReport .m2) ∧
      (busyWitness 0x1000 .cmdReport .m2).pc.major ≠ .idle ∧
      blockStep (busyWitness 0x1000 .cmdReport .m2) = .next t ∧
      State.Inv (offered 0x9000) ∧ blockStep (offered 0x9000) = .next u ∧
      State.Inv State.reset ∧ blockStep State.reset = .next v :=
  ⟨_, _, _, by decide, by decide, rfl, by decide, rfl, by decide, rfl⟩

/-- The clauses: a step that ends its command; a step that does not; no command and no word; a word
that is accepted, and one that is refused. -/
theorem witness_CompletionReportsTheResult :
    ∃ t u v x y, State.Inv (busyWitness 0x1000 .cmdReport .m2) ∧
      (busyWitness 0x1000 .cmdReport .m2).busy = true ∧
      blockStep (busyWitness 0x1000 .cmdReport .m2) = .next t ∧ t.busy = false ∧
      State.Inv (busyWitness 0x1000 .cmdReport .m1) ∧
      blockStep (busyWitness 0x1000 .cmdReport .m1) = .next u ∧ u.busy = true ∧
      State.Inv State.reset ∧ State.reset.busy = false ∧ State.reset.cmdPort = [] ∧
      blockStep State.reset = .next v ∧
      State.Inv (offered 0x6003) ∧ (offered 0x6003).busy = false ∧
      (offered 0x6003).cmdPort = 0x6003 :: [] ∧ blockStep (offered 0x6003) = .next x ∧
      State.Inv (offered 0x6004) ∧ (offered 0x6004).cmdPort = 0x6004 :: [] ∧
      blockStep (offered 0x6004) = .next y :=
  ⟨_, _, _, _, _, by decide, rfl, rfl, rfl, by decide, rfl, rfl, by decide, rfl, rfl, rfl,
    by decide, rfl, rfl, rfl, by decide, rfl, rfl⟩

/-- A load whose source fails; an illegal word; a setter out of range. -/
theorem witness_ResultsByCommand :
    ∃ t u v, State.Inv { busyWitness 0x3000 .cmdLoad .m0 with imgPlan := [.fail] } ∧
      inProgress { busyWitness 0x3000 .cmdLoad .m0 with imgPlan := [.fail] } = some .loadBitstream ∧
      blockStep { busyWitness 0x3000 .cmdLoad .m0 with imgPlan := [.fail] } = .next t ∧ t.busy = false ∧
      decodeCmd 0x9000 = none ∧ blockStep (offered 0x9000) = .next u ∧ u.busy = false ∧
      decodeCmd 0x6004 = some (.setCdratio 4) ∧ blockStep (offered 0x6004) = .next v ∧ v.busy = false :=
  ⟨_, _, _, by decide, rfl, rfl, rfl, by decide, rfl, rfl, by decide, rfl, rfl⟩

/-- The third poll of a hardened wait. -/
theorem witness_ErrorsRollNothingBack :
    ∃ t, let s := hardened { busyWitness 0x2000 .run4 .m0 with polls := 2 }
      s.Inv ∧ s.busy = true ∧ blockStep s = .next t ∧ t.busy = false ∧ t.result ≠ 1 :=
  ⟨_, by decide, rfl, rfl, rfl, by decide⟩

/-- A step that falls under none of the exceptions, the report's last. -/
theorem witness_DeviceChangesOnlyByItsWrite :
    ∃ t, let s := busyWitness 0x1000 .cmdReport .m2
      blockStep s = .next t ∧ s.pc ≠ ⟨.cmdReset, .m1⟩ ∧
      ¬ (s.pc.minor = .m1 ∧
        s.pc.major ∈ [.run2, .run3, .run5, .run6, .run8, .run11a, .run11b, .cmdSetf]) ∧
      s.pc ≠ ⟨.run9, .m1⟩ ∧ s.pc ≠ ⟨.cmdLoad, .m1⟩ ∧ s.pc.major ≠ .idle :=
  ⟨_, rfl, by decide, by decide, by decide, by decide, by decide⟩

theorem witness_ControlWritesPreserveUnnamedBits :
    ∃ t, let s := { busyWitness 0x6001 .cmdSetf .m1 with ctl := 0xFFFF }
      blockStep s = .next t ∧ t.trace = s.trace ++ .wr16 0xFF706004 0xFF7F :: [.res 1] :=
  ⟨_, rfl, rfl⟩

theorem witness_EveryWriteFollowsItsOwnRead :
    ∃ t, step (busyWitness 0x2000 .run2 .m0) = .next t ∧ t.pc = ⟨.run2, .m1⟩ := ⟨_, rfl, rfl⟩

theorem witness_AddressesAlignedAndInside : Config.baseline.valid = true := by decide

theorem witness_ParametersNeverChange :
    ∃ t, step { busyWitness 0x2000 .run2 .m0 with env := [[.blockReset, .offerCommand 0x2000]] } = .next t :=
  ⟨_, rfl⟩

/-- `s` with a schedule of one move, between the next two steps. -/
def between (m : EnvMove) (s : State) : State := { s with env := [] :: [m] :: [] }

/-- A setter with a further word offered, a run step with none, and `reset`. -/
theorem witness_ResetBetweenHalvesDropsTheWrite :
    (∀ s ∈ [busyWitness 0x6003 .cmdSetf .m0, inCommand 0x2000 .run11b .m0, inCommand 0x8000 .cmdReset .m0],
      (between .blockReset s).Inv ∧ s.cfg.valid = true ∧ s.pc.minor = .m0 ∧
      (s.pc.major ∈ ctrlWriters ∨ s.pc.major = .cmdReset)) ∧
    (inCommand 0x2000 .run11b .m0).cmdPort = [] := by decide

/-- A setter, a run step, and `reset`. -/
theorem witness_ReadModifyWriteLosesAnUpdate :
    (∀ s ∈ [busyWitness 0x4001 .cmdSetf .m0, busyWitness 0x2000 .run5 .m0],
      (between (.showCtrl 0xFFFF) s).Inv ∧ s.cfg.valid = true ∧ s.pc.minor = .m0 ∧
      s.pc.major ∈ ctrlWriters) ∧
    (between (.showStat 0xFF) (busyWitness 0x8000 .cmdReset .m0)).cfg.valid = true ∧
    (busyWitness 0x8000 .cmdReset .m0).pc = ⟨.cmdReset, .m0⟩ := by decide

theorem witness_SnapshotIsNotAtomic :
    let s := { inCommand 0x1000 .cmdReport .m0 with
      env := [.showStat 0xFF] :: [.showStat 0x50, .showCtrl 1] :: [.showCtrl 0, .showGpio 2] :: [] }
    s.cfg.valid = true ∧ s.pc = ⟨.cmdReport, .m0⟩ ∧
      s.env = [.showStat 0xFF] :: [.showStat 0x50, .showCtrl 1] :: [.showCtrl 0, .showGpio 2] :: [] := by
  decide

/-- A run that has set `ctrl_en` and `nconfigpull` in a CTRL that was 0, at its first wait. -/
theorem witness_RunLeavesTheFieldsOfItsSteps :
    ∃ t, let s := hardened { busyWitness 0x2000 .run4 .m0 with ctrlReg := 0x0005, polls := 2 }
      s.Inv ∧ isRun s.pc.major = true ∧ CtrlAsDone 0 s ∧ blockStep s = .next t ∧ t.busy = false ∧
      t.result ≠ 1 :=
  ⟨_, by decide, rfl, ⟨by decide, fun h => by cases h⟩, rfl, rfl, by decide⟩

/-- A write of CTRL and a write of STAT. -/
theorem witness_NoCommandWritesCfgwdthOrAnotherMode :
    ∃ t u, let a := { busyWitness 0x4001 .cmdSetf .m1 with ctl := 0x0200 }
      let b := { busyWitness 0x8000 .cmdReset .m1 with st := 0x54 }
      blockStep a = .next t ∧ t.trace = a.trace ++ [.wr16 0xFF706004 0x0201, .res 1] ∧
      blockStep b = .next u ∧ u.trace = b.trace ++ [.wr8 0xFF706000 0x51, .res 1] :=
  ⟨_, _, rfl, rfl, rfl, rfl⟩

theorem witness_ResetValues : State.reset = State.reset ∨ ∃ s, State.reset = applyMove s .blockReset :=
  .inl rfl

end Sys2Proof.Tests.Slice0
end

section
/-! PROOF. The parameters are no state (R7, R47): each operation of the block keeps `cfg`, hence each step. -/

namespace Sys2Proof.Machine

variable {s t : State}

/-! ### What each operation makes of the parameters -/

@[simp] theorem rejectIllegal_cfg (w : Halfword) (s : State) : (rejectIllegal w s).cfg = s.cfg := rfl

@[simp] theorem afterMajor_cfg (m : Major) (s : State) : (afterMajor m s).cfg = s.cfg := by
  cases m <;> simp [afterMajor]

theorem acceptStep_keeps_cfg {w : Halfword} {b : Bool} {entry : Major}
    (h : acceptStep w b entry s = .next t) : t.cfg = s.cfg := by
  obtain ⟨-, ⟨-, rfl⟩ | ⟨-, -, rfl⟩ | ⟨-, -, rfl⟩⟩ := acceptStep_next.mp h <;> simp

theorem imgRead_keeps_cfg (s : State) : (imgRead s).2.cfg = s.cfg := by
  obtain ⟨_, -, h⟩ | ⟨_, _, _, -, -, -, -, h⟩ := imgRead_cases s <;> simp [h]

/-! The shared steps take what the sequence does afterwards as an argument; they keep the parameters if
those continuations do. -/

section Continuations

variable {g k : State → State} (hg : ∀ u, (g u).cfg = u.cfg) (hk : ∀ u, (k u).cfg = u.cfg)
include hk

theorem reportStep_keeps_cfg (h : reportStep k s = .next t) : t.cfg = s.cfg := by
  obtain ⟨-, rfl⟩ | ⟨-, rfl⟩ | ⟨-, rfl⟩ := reportStep_next.mp h <;> simp [hk]

theorem waitStep_keeps_cfg {m : BitVec 3} (h : waitStep m k s = .next t) : t.cfg = s.cfg := by
  cases hl : s.cfg.pollLimit with
  | none =>
    obtain ⟨-, ⟨-, rfl⟩ | ⟨-, rfl⟩⟩ := (waitStep_next_baseline hl).mp h <;> simp [hk]
  | some limit =>
    obtain ⟨-, ⟨-, rfl⟩ | ⟨-, -, rfl⟩ | ⟨-, -, rfl⟩⟩ := (waitStep_next_hardened hl).mp h <;> simp [hk]

theorem fetchStep_keeps_cfg (s : State) : (fetchStep k s).cfg = s.cfg := by
  have hread := imgRead_keeps_cfg s
  obtain ⟨u, hu, h⟩ | ⟨c, u, hu, ⟨-, h⟩ | ⟨-, h⟩ | ⟨-, -, -, h⟩ | ⟨-, -, -, h⟩⟩ := fetchStep_cases k s <;>
    simpa [h, hk, hu] using hread

theorem writeStep_keeps_cfg (s : State) : (writeStep k s).cfg = s.cfg := by
  obtain ⟨-, h⟩ | ⟨-, h⟩ := writeStep_cases k s <;> simp [h, hk]

theorem loadStep_keeps_cfg (h : loadStep k s = .next t) : t.cfg = s.cfg := by
  obtain ⟨-, rfl⟩ | ⟨-, rfl⟩ := loadStep_next.mp h
  · exact fetchStep_keeps_cfg hk s
  · exact writeStep_keeps_cfg hk s

include hg

theorem controlFieldStep_keeps_cfg {f : CtrlField} {val : Nat}
    (h : controlFieldStep f val g k s = .next t) : t.cfg = s.cfg := by
  obtain ⟨-, rfl⟩ | ⟨-, -, rfl⟩ | ⟨-, -, rfl⟩ := controlFieldStep_next.mp h <;> simp [hg, hk]

theorem statusModeStep_keeps_cfg {val : Nat}
    (h : statusModeStep val g k s = .next t) : t.cfg = s.cfg := by
  obtain ⟨-, rfl⟩ | ⟨-, -, rfl⟩ | ⟨-, -, rfl⟩ := statusModeStep_next.mp h <;> simp [hg, hk]

end Continuations

/-! ### The step -/

theorem blockStep_keeps_cfg (h : blockStep s = .next t) : t.cfg = s.cfg := by
  rcases blockStep_cases h with ⟨-, -, rfl⟩ | ⟨w, rest, -, -, -, rfl⟩ | ⟨w, rest, i, hpc, -, hd, h⟩ |
    ⟨-, h⟩ | ⟨f, val, -, h⟩ | ⟨-, h⟩ | ⟨m, -, h⟩ | ⟨-, h⟩
  · rfl
  · simp
  · rw [exec_idle hd (by simp [hpc])] at h
    simpa using acceptStep_keeps_cfg h
  · exact reportStep_keeps_cfg (afterMajor_cfg _) h
  · exact controlFieldStep_keeps_cfg (goto_cfg · _ _) (afterMajor_cfg _) h
  · exact statusModeStep_keeps_cfg (goto_cfg · _ _) (finish_cfg · _) h
  · exact waitStep_keeps_cfg (afterMajor_cfg _) h
  · exact loadStep_keeps_cfg (afterMajor_cfg _) h

/-- A step that answers a next state had legal parameters and is the block's step after the gap. -/
theorem step_next : step s = .next t ↔ s.cfg.valid = true ∧ blockStep (applyEnv s) = .next t := by
  unfold step
  cases s.cfg.valid <;> simp

/-- Settles O51: the moves of the gap keep the parameters (`applyEnv_cfg`), and so does the block's step,
whichever operation it is. -/
theorem parametersNeverChange : Obligations.ParametersNeverChange := by
  intro s t h
  obtain ⟨-, hblock⟩ := step_next.mp h
  calc t.cfg = (applyEnv s).cfg := blockStep_keeps_cfg hblock
    _ = s.cfg := applyEnv_cfg s

end Sys2Proof.Machine
end

section
/-! PROOF. What a step of the block is made of (R22): in IDLE it waits or takes a word off the port; busy, it
makes one access and then moves on in its sequence. Every statement about single steps is read off these. -/

namespace Sys2Proof.Machine

variable {s t u : State} {e : Event}

/-! ### The step of the block, case by case -/

/-- In IDLE with no word offered the block waits. -/
theorem blockStep_no_word (hpc : s.pc = ⟨.idle, .m0⟩) (hport : s.cmdPort = []) : blockStep s = .next s := by
  simp [blockStep, idleStep, hpc, hport]

/-- In IDLE a word that decodes is taken off the port and its command runs. -/
theorem blockStep_word {w : Halfword} {rest : List Halfword} {i : Instr} (hpc : s.pc = ⟨.idle, .m0⟩)
    (hport : s.cmdPort = w :: rest) (hd : decodeCmd w = some i) :
    blockStep s = exec i { s with cmdPort := rest } := by
  simp [blockStep, idleStep, hpc, hport, hd]

/-- In IDLE a word that does not decode is taken off the port and refused. -/
theorem blockStep_illegal_word {w : Halfword} {rest : List Halfword} (hpc : s.pc = ⟨.idle, .m0⟩)
    (hport : s.cmdPort = w :: rest) (hd : decodeCmd w = none) :
    blockStep s = .next (rejectIllegal w { s with cmdPort := rest }) := by
  simp [blockStep, idleStep, hpc, hport, hd]

/-- Outside IDLE the command in progress runs. -/
theorem blockStep_in_progress {i : Instr} (hm : s.pc.major ≠ .idle) (hi : inProgress s = some i) :
    blockStep s = exec i s := by
  simp [blockStep, hm, hi]

/-! ### The parts of a step -/

/-- `pc` stands before the loader's write. -/
def BeforeLoaderWrite (p : Pc) : Prop := p = ⟨.run9, .m1⟩ ∨ p = ⟨.cmdLoad, .m1⟩

/-- What follows the latching of an offered word in `u`: a refusal, or the command's first `pc` (R210). -/
inductive Accepts (u : State) : State → Prop where
  | refuse (r : ResultKind) : Accepts u (finish r u)
  | enter (i : Instr) (hword : decodeCmd u.cmd = some i) (hfits : valueFits i = true)
      (hmapped : u.winMapped = true) : Accepts u (goto (entryMajor i) .m0 u)

/-- The one access of a busy step that begins in `s`: its event, and the state after it. A report takes its
snapshot with its last read, a hardened wait counts its read, the loader keeps the bytes it fetched. -/
inductive Accesses (s : State) : Event → State → Prop where
  | readStat : Accesses s (.rd8 (statAddr s.cfg) s.statReg) (readStat s)
  | pollStat (limit : Nat) (hwait : isWait s.pc.major = true) (hlimit : s.cfg.pollLimit = some limit) :
      Accesses s (.rd8 (statAddr s.cfg) s.statReg) (countPoll (readStat s))
  | readCtrl : Accesses s (.rd16 (ctrlAddr s.cfg) s.ctrlReg) (readCtrl s)
  | readGpio : Accesses s (.rd16 (gpioAddr s.cfg) s.gpioReg) (takeSnap (readGpio s))
  | writeCtrl (f : CtrlField) (val : Nat) (hfield : fieldAt s = some (f, val)) (hminor : s.pc.minor = .m1) :
      Accesses s (.wr16 (ctrlAddr s.cfg) (insertField (ctrlDesc f) s.ctl val))
        (writeCtrl (insertField (ctrlDesc f) s.ctl val) s)
  | writeStat (hpc : s.pc = ⟨.cmdReset, .m1⟩) :
      Accesses s (.wr8 (statAddr s.cfg) (insertField modeDesc s.st 1))
        (writeStat (insertField modeDesc s.st 1) s)
  | writeData (hpc : BeforeLoaderWrite s.pc) : Accesses s (.wr32 (dataAddr s.cfg) s.w) (writeData s.w s)
  | fetch (c : List Byte) (plan : List ImgPlan) (hlen : c.length ≤ 4) :
      Accesses s (.img c) (storeBlock c { s with
        imgPlan := plan, imgPos := s.imgPos + c.length, trace := s.trace ++ [.img c] })
  | fetchFails (plan : List ImgPlan) :
      Accesses s .imgErr { s with imgPlan := plan, trace := s.trace ++ [.imgErr] }

/-- How the sequence goes on from `u`, the state after the access of a step that began in `s`: to another
phase of the same major step, past that major step, to the end of the command with a result, or nowhere, at a
wait whose bound is not reached. -/
inductive MovesOn (s u : State) : State → Prop where
  | phase (k : Minor) (hlegal : pcLegal ⟨s.pc.major, k⟩ = true) (hwait : isWait s.pc.major = false)
      (hbytes : BeforeLoaderWrite ⟨s.pc.major, k⟩ → u.n.toNat ≠ 0) : MovesOn s u (goto s.pc.major k u)
  | done : MovesOn s u (afterMajor s.pc.major u)
  | ends (r : ResultKind) : MovesOn s u (finish r u)
  | waits (hwait : isWait s.pc.major = true) (hlimit : ∀ limit ∈ u.cfg.pollLimit, u.polls ≠ limit) :
      MovesOn s u u

/-! ### What each of them does to the trace and to the device -/

theorem Accepts.trace (h : Accepts u t) : t.trace = u.trace ∨ t.trace = u.trace ++ [.res t.result] := by
  cases h with
  | refuse => exact .inr rfl
  | enter => exact .inl rfl

theorem Accepts.frame (h : Accepts u t) :
    t = { u with pc := t.pc, busy := t.busy, result := t.result, trace := t.trace } := by
  cases h <;> rfl

theorem Accesses.trace (h : Accesses s e u) : u.trace = s.trace ++ [e] := by
  cases h <;> rfl

theorem Accesses.isAccess (h : Accesses s e u) : isAccess e = true := by
  cases h <;> rfl

/-- The operations by which a sequence goes on change nothing but the step register, the outputs, the poll
count and the trace, which grows by RES at most. -/
theorem afterMajor_frame (m : Major) (u : State) :
    let t := afterMajor m u
    t = { u with pc := t.pc, busy := t.busy, result := t.result, polls := t.polls, trace := t.trace } ∧
    (t.trace = u.trace ∨ t.trace = u.trace ++ [.res t.result]) := by
  cases m <;> simp [afterMajor, goto, enterWait, finish]

theorem MovesOn.frame (h : MovesOn s u t) :
    t = { u with pc := t.pc, busy := t.busy, result := t.result, polls := t.polls, trace := t.trace } := by
  cases h with
  | done => exact (afterMajor_frame _ _).1
  | _ => rfl

theorem MovesOn.trace (h : MovesOn s u t) : t.trace = u.trace ∨ t.trace = u.trace ++ [.res t.result] := by
  cases h with
  | done => exact (afterMajor_frame _ _).2
  | ends => exact .inr rfl
  | _ => exact .inl rfl

/-! ### Where the majors stand -/

/-- The majors of a read-modify-write of CTRL are those of `ctrlWriters`. -/
theorem fieldAt_major {p : CtrlField × Nat} (h : fieldAt s = some p) : s.pc.major ∈ ctrlWriters := by
  cases hm : s.pc.major <;> simp_all [fieldAt, ctrlWriters]

/-- Each of them has a second phase, the write half, which is no wait and no step of the loader (R21). -/
theorem ctrlWriters_write_phase : ∀ m ∈ ctrlWriters,
    pcLegal ⟨m, .m1⟩ = true ∧ isWait m = false ∧ ¬ BeforeLoaderWrite ⟨m, .m1⟩ := by
  unfold BeforeLoaderWrite
  decide

/-- No sequence writes `cfgwdth` (R122 (d)). -/
theorem fieldAt_ne_cfgwdth {f : CtrlField} {val : Nat} (h : fieldAt s = some (f, val)) : f ≠ .cfgwdth := by
  rintro rfl
  unfold fieldAt at h
  split at h
  case h_8 => split at h <;> simp at h
  all_goals simp at h

theorem isWait_of_awaited {m : Major} {mode : BitVec 3} (h : awaited m = some mode) : isWait m = true := by
  cases m <;> simp_all [awaited, isWait]

/-! ### Each shared step makes an access and moves on -/

theorem reportStep_moves (hm : s.pc.major = .run1 ∨ s.pc.major = .run12 ∨ s.pc.major = .cmdReport)
    (h : reportStep (afterMajor s.pc.major) s = .next t) : ∃ e u, Accesses s e u ∧ MovesOn s u t := by
  have hphase (u : State) (k : Minor) : MovesOn s u (goto s.pc.major k u) := by
    rcases hm with hm | hm | hm <;>
      exact .phase k (by rw [hm]; rfl) (by rw [hm]; rfl) (by simp [BeforeLoaderWrite, hm])
  obtain ⟨-, rfl⟩ | ⟨-, rfl⟩ | ⟨-, rfl⟩ := reportStep_next.mp h
  · exact ⟨_, _, .readStat, hphase _ _⟩
  · exact ⟨_, _, .readCtrl, hphase _ _⟩
  · exact ⟨_, _, .readGpio, .done⟩

theorem controlFieldStep_moves {f : CtrlField} {val : Nat} (hf : fieldAt s = some (f, val))
    (h : controlFieldStep f val (goto s.pc.major .m1) (afterMajor s.pc.major) s = .next t) :
    (fitsField (ctrlDesc f) val = false ∧ t = finish .invalidFieldValue s) ∨
    ∃ e u, Accesses s e u ∧ MovesOn s u t := by
  obtain ⟨hfits, rfl⟩ | ⟨-, -, rfl⟩ | ⟨-, hm1, rfl⟩ := controlFieldStep_next.mp h
  · exact .inl ⟨hfits, rfl⟩
  · obtain ⟨hlegal, hwait, hload⟩ := ctrlWriters_write_phase _ (fieldAt_major hf)
    exact .inr ⟨_, _, .readCtrl, .phase _ hlegal hwait fun hbefore => absurd hbefore hload⟩
  · exact .inr ⟨_, _, .writeCtrl f val hf hm1, .done⟩

theorem statusModeStep_moves (hm : s.pc.major = .cmdReset)
    (h : statusModeStep 1 (goto .cmdReset .m1) (finish .ok) s = .next t) :
    ∃ e u, Accesses s e u ∧ MovesOn s u t := by
  obtain ⟨hfits, -⟩ | ⟨-, -, rfl⟩ | ⟨-, hm1, rfl⟩ := statusModeStep_next.mp h
  · exact absurd hfits (by decide)
  · rw [← hm]
    exact ⟨_, _, .readStat, .phase _ (by rw [hm]; rfl) (by rw [hm]; rfl) (by simp [BeforeLoaderWrite, hm])⟩
  · exact ⟨_, _, .writeStat (by rw [← hm, ← hm1]), .ends _⟩

theorem waitStep_moves {mode : BitVec 3} (hm : awaited s.pc.major = some mode)
    (h : waitStep mode (afterMajor s.pc.major) s = .next t) : ∃ e u, Accesses s e u ∧ MovesOn s u t := by
  have hwait := isWait_of_awaited hm
  cases hl : s.cfg.pollLimit with
  | none =>
    obtain ⟨-, ⟨-, rfl⟩ | ⟨-, rfl⟩⟩ := (waitStep_next_baseline hl).mp h
    · exact ⟨_, _, .readStat, .done⟩
    · exact ⟨_, _, .readStat, .waits hwait (by simp [hl])⟩
  | some limit =>
    obtain ⟨-, ⟨-, rfl⟩ | ⟨-, -, rfl⟩ | ⟨-, hne, rfl⟩⟩ := (waitStep_next_hardened hl).mp h
    · exact ⟨_, _, .pollStat limit hwait hl, .done⟩
    · exact ⟨_, _, .pollStat limit hwait hl, .ends _⟩
    · exact ⟨_, _, .pollStat limit hwait hl, .waits hwait (by simpa [hl] using hne)⟩

theorem fetchStep_moves (hm : s.pc.major = .run9 ∨ s.pc.major = .cmdLoad) :
    ∃ e u, Accesses s e u ∧ MovesOn s u (fetchStep (afterMajor s.pc.major) s) := by
  have hphase (c : List Byte) (u : State) (hlen : c.length ≤ 4) (hne : c.length ≠ 0) :
      MovesOn s (storeBlock c u) (goto s.pc.major .m1 (storeBlock c u)) := by
    refine .phase _ ?_ ?_ fun _ => ?_
    · rcases hm with hm | hm <;> rw [hm] <;> rfl
    · rcases hm with hm | hm <;> rw [hm] <;> rfl
    · rw [storeBlock_n, BitVec.toNat_ofNat]
      omega
  obtain ⟨plan, -, hread⟩ | ⟨c, plan, _, -, -, hlen, -, hread⟩ := imgRead_cases s
  · obtain ⟨u, hu, h⟩ | ⟨c, u, hu, -⟩ := fetchStep_cases (afterMajor s.pc.major) s
    · obtain ⟨-, rfl⟩ := Prod.mk.inj (hu.symm.trans hread)
      rw [h]
      exact ⟨_, _, .fetchFails plan, .ends _⟩
    · simp [hread] at hu
  · obtain ⟨u, hu, -⟩ | ⟨c', u, hu, h⟩ := fetchStep_cases (afterMajor s.pc.major) s
    · simp [hread] at hu
    · obtain ⟨hc, rfl⟩ := Prod.mk.inj (hu.symm.trans hread)
      obtain rfl := ImgAnswer.bytes.inj hc
      refine ⟨_, _, .fetch c' plan hlen, ?_⟩
      obtain ⟨h4, h⟩ | ⟨-, h⟩ | ⟨h0, -, -, h⟩ | ⟨-, -, -, h⟩ := h <;> rw [h]
      · exact hphase c' _ hlen (by omega)
      · exact .done
      · exact hphase c' _ hlen h0
      · exact .ends _

theorem loadStep_moves (hm : s.pc.major = .run9 ∨ s.pc.major = .cmdLoad)
    (h : loadStep (afterMajor s.pc.major) s = .next t) : ∃ e u, Accesses s e u ∧ MovesOn s u t := by
  obtain ⟨-, rfl⟩ | ⟨hm1, rfl⟩ := loadStep_next.mp h
  · exact fetchStep_moves hm
  · have hpc : BeforeLoaderWrite s.pc := hm.imp (fun hm => by rw [← hm, ← hm1]) (fun hm => by rw [← hm, ← hm1])
    refine ⟨_, _, .writeData hpc, ?_⟩
    obtain ⟨-, h⟩ | ⟨-, h⟩ := writeStep_cases (afterMajor s.pc.major) s <;> rw [h]
    · refine .phase _ ?_ ?_ (by simp [BeforeLoaderWrite]) <;> rcases hm with hm | hm <;> rw [hm] <;> rfl
    · exact .done

/-! ### The step of the block -/

/-- In IDLE: a wait for a word, or the latching of the word offered first and what follows it. -/
theorem blockStep_idle_next (h : blockStep s = .next t) (hm : s.pc.major = .idle) :
    (s.cmdPort = [] ∧ t = s) ∨
    ∃ w rest, s.cmdPort = w :: rest ∧ Accepts (latchCommand w { s with cmdPort := rest }) t := by
  rcases blockStep_cases h with ⟨-, hport, rfl⟩ | ⟨w, rest, -, hport, -, rfl⟩ |
    ⟨w, rest, i, hpc, hport, hd, h⟩ | ⟨hr, -⟩ | ⟨f, val, hf, -⟩ | ⟨hr, -⟩ | ⟨mode, hw, -⟩ | ⟨hl, -⟩
  · exact .inl ⟨hport, rfl⟩
  · exact .inr ⟨w, rest, hport, .refuse _⟩
  · rw [exec_idle hd (by simp [hpc])] at h
    obtain ⟨-, ⟨-, rfl⟩ | ⟨-, -, rfl⟩ | ⟨hmap, hfits, rfl⟩⟩ := acceptStep_next.mp h
    · exact .inr ⟨w, rest, hport, .refuse _⟩
    · exact .inr ⟨w, rest, hport, .refuse _⟩
    · exact .inr ⟨w, rest, hport, .enter i hd hfits hmap⟩
  · simp [hm] at hr
  · simp [fieldAt, hm] at hf
  · simp [hm] at hr
  · simp [hm, awaited] at hw
  · simp [hm] at hl

/-- Outside IDLE: one access, then a move of the sequence; or, where the value of a read-modify-write does
not fit, no access and result 3. -/
theorem blockStep_busy_next (h : blockStep s = .next t) (hm : s.pc.major ≠ .idle) :
    (∃ f val, fieldAt s = some (f, val) ∧ fitsField (ctrlDesc f) val = false ∧
      t = finish .invalidFieldValue s) ∨
    ∃ e u, Accesses s e u ∧ MovesOn s u t := by
  rcases blockStep_cases h with ⟨hpc, -⟩ | ⟨w, rest, hpc, -⟩ | ⟨w, rest, i, hpc, -⟩ | ⟨hr, h⟩ |
    ⟨f, val, hf, h⟩ | ⟨hr, h⟩ | ⟨mode, hw, h⟩ | ⟨hl, h⟩
  · simp [hpc] at hm
  · simp [hpc] at hm
  · simp [hpc] at hm
  · exact .inr (reportStep_moves hr h)
  · exact (controlFieldStep_moves hf h).imp_left fun hfits => ⟨f, val, hf, hfits⟩
  · exact .inr (statusModeStep_moves hr h)
  · exact .inr (waitStep_moves hw h)
  · exact .inr (loadStep_moves hl h)

end Sys2Proof.Machine
end

section
/-! PROOF. The invariant (R21 to R27, R151, R210): what of it does not look at `pc` is carried by every access
and every move of a sequence, and each move puts `pc` where its command allows. -/

namespace Sys2Proof.Machine

variable {s t u : State} {e : Event} {i : Instr}

/-! ### The part of the invariant that does not look at `pc` -/

/-- The loader's registers agree: `blk` holds `n` bytes and zeros beyond them, and `w` packs it. -/
def BlockPacked (s : State) : Prop :=
  s.n.toNat ≤ 4 ∧
  (s.n.toNat ≤ 0 → s.blk.b0 = 0) ∧ (s.n.toNat ≤ 1 → s.blk.b1 = 0) ∧
  (s.n.toNat ≤ 2 → s.blk.b2 = 0) ∧ (s.n.toNat ≤ 3 → s.blk.b3 = 0) ∧
  s.w = pack4 s.blk

/-- `polls` is below the bound, where there is one. -/
def PollsBelow (s : State) : Prop := ∀ limit ∈ s.cfg.pollLimit, s.polls < limit

/-- What holds of the working registers and the trace at every `pc`. -/
structure DataSound (s : State) : Prop where
  packed : BlockPacked s
  polls_baseline : s.cfg.pollLimit = none → s.polls = 0
  polls_le : ∀ limit ∈ s.cfg.pollLimit, s.polls ≤ limit
  trace : TraceLegal s

/-- The command `i` has been accepted and has not ended, wherever `pc` stands. -/
structure Executing (i : Instr) (s : State) : Prop where
  data : DataSound s
  busy : s.busy = true
  result : s.result = 0
  mapped : s.winMapped = true
  word : decodeCmd s.cmd = some i
  fits : valueFits i = true

theorem State.Inv.dataSound (h : s.Inv) : DataSound s := by
  obtain ⟨-, -, -, -, -, ⟨hn, h0, h1, h2, h3, hw, -⟩, ⟨hbase, hlim⟩, htr⟩ := h
  exact ⟨⟨hn, h0, h1, h2, h3, hw⟩, hbase, fun l hl => (hlim l hl).1, htr⟩

theorem State.Inv.pc_legal (h : s.Inv) : pcLegal s.pc = true := by
  obtain ⟨-, hpc, -⟩ := h
  exact hpc

theorem State.Inv.pollsBelow (h : s.Inv) (hw : isWait s.pc.major = true) : PollsBelow s := by
  obtain ⟨-, -, -, -, -, -, ⟨-, hlim⟩, -⟩ := h
  exact fun l hl => (hlim l hl).2 hw

/-- Outside IDLE a state of the invariant is in the middle of the command that `pc` names. -/
theorem State.Inv.executing (h : s.Inv) (hm : s.pc.major ≠ .idle) :
    ∃ i, inProgress s = some i ∧ Executing i s := by
  have hdata := h.dataSound
  obtain ⟨hbusy, -, ⟨-, hres⟩, hcmd, hmap, -, -, -⟩ := h
  have hb : s.busy = true := by rw [hbusy, decide_eq_true hm]
  obtain ⟨hsome, hword, hfits⟩ := hcmd hm
  obtain ⟨i, hi⟩ := Option.isSome_iff_exists.mp hsome
  exact ⟨i, hi, hdata, hb, hres hb, hmap hb, by rw [← hword, hi], by simpa [hi] using hfits⟩

/-- In the middle of a command the invariant holds wherever `pc` stands at a place of that command. -/
theorem Executing.inv (h : Executing i s) (hi : inProgress s = some i) (hpc : pcLegal s.pc = true)
    (hn : BeforeLoaderWrite s.pc → s.n.toNat ≠ 0) (hw : isWait s.pc.major = true → PollsBelow s) :
    s.Inv := by
  obtain ⟨⟨⟨hn4, h0, h1, h2, h3, hpack⟩, hbase, hle, htr⟩, hb, hres, hmap, hword, hfits⟩ := h
  have hm : s.pc.major ≠ .idle := by
    intro hidle
    simp [inProgress, hidle] at hi
  have hheld : CommandHeld s := fun _ => by simp [hi, hword, hfits]
  exact ⟨by rw [BusyMatchesPc, hb, decide_eq_true hm], hpc, ⟨by simp [hres], fun _ => hres⟩, hheld,
    fun _ => hmap, ⟨hn4, h0, h1, h2, h3, hpack, hn⟩,
    ⟨hbase, fun l hl => ⟨hle l hl, fun hwait => hw hwait l hl⟩⟩, htr⟩

/-- In IDLE the invariant asks nothing more of the registers than at every `pc`. -/
theorem DataSound.inv_of_idle (h : DataSound s) (hpc : s.pc = ⟨.idle, .m0⟩) (hb : s.busy = false)
    (hr : s.result.toNat ≤ 7) : s.Inv := by
  obtain ⟨⟨hn4, h0, h1, h2, h3, hpack⟩, hbase, hle, htr⟩ := h
  exact ⟨by simp [BusyMatchesPc, hb, hpc], by simp [PcInTable, hpc, pcLegal], ⟨hr, by simp [hb]⟩,
    by simp [CommandHeld, hpc], by simp [MappedWhileBusy, hb],
    ⟨hn4, h0, h1, h2, h3, hpack, by simp [hpc]⟩,
    ⟨hbase, fun l hl => ⟨hle l hl, by simp [hpc, isWait]⟩⟩, htr⟩

/-- The command in progress is named by the major part of `pc` and by `cmd`, and by nothing else. -/
theorem inProgress_congr (hm : t.pc.major = s.pc.major) (hc : t.cmd = s.cmd) :
    inProgress t = inProgress s := by
  simp [inProgress, hm, hc]

/-! ### The operations carry it -/

/-- One more legal event leaves the trace legal. -/
theorem traceLegal_append (h : TraceLegal s) (he : eventLegal s.cfg e = true) :
    ∀ e' ∈ s.trace ++ [e], eventLegal s.cfg e' = true := by
  intro e' he'
  rcases List.mem_append.mp he' with hold | hnew
  · exact h e' hold
  · rw [List.mem_singleton.mp hnew]
    exact he

/-- After a fetch of at most 4 bytes the loader's registers agree. -/
theorem blockPacked_storeBlock {c : List Byte} (hlen : c.length ≤ 4) (u : State) :
    BlockPacked (storeBlock c u) := by
  have hn : (storeBlock c u).n.toNat = c.length := by
    rw [storeBlock_n, BitVec.toNat_ofNat]
    omega
  have hzero {k : Nat} (hk : c.length ≤ k) : c.getD k 0 = 0 := List.getD_eq_default c 0 hk
  rw [BlockPacked, hn]
  exact ⟨hlen, hzero, hzero, hzero, hzero, rfl⟩

/-- Whatever a command has done, ending it gives a state of the invariant. -/
theorem DataSound.inv_finish (h : DataSound s) (r : ResultKind) : (finish r s).Inv := by
  have hres := resultCode_range r
  refine DataSound.inv_of_idle ?_ rfl rfl hres.2
  exact { h with trace := traceLegal_append h.trace (by simpa [eventLegal] using hres) }

/-- An accepted or refused word gives a state of the invariant. -/
theorem Accepts.inv (h : Accepts u t) (hd : DataSound u) (hb : u.busy = true) (hr : u.result = 0) :
    t.Inv := by
  cases h with
  | refuse r => exact hd.inv_finish r
  | enter i hword hfits hmapped =>
    have hx : Executing i (goto (entryMajor i) .m0 u) :=
      ⟨{ hd with }, hb, hr, hmapped, hword, hfits⟩
    refine hx.inv (inProgress_entry hword rfl rfl) ?_ (by simp [BeforeLoaderWrite]) ?_
    · cases i <;> rfl
    · cases i <;> simp [entryMajor, isWait]

/-- An access of a step inside a command leaves the block in the middle of that command. -/
theorem Accesses.executing (h : Accesses s e u) (hs : s.Inv) (hx : Executing i s) : Executing i u := by
  cases h with
  | readStat | readCtrl | readGpio | writeCtrl | writeStat | writeData | fetchFails =>
    exact { hx with data := { hx.data with trace := traceLegal_append hx.data.trace (by simp [eventLegal]) } }
  | pollStat limit hwait hlimit =>
    exact { hx with data := { hx.data with
      trace := traceLegal_append hx.data.trace (e := .rd8 (statAddr s.cfg) s.statReg) (by simp [eventLegal])
      polls_baseline := fun hnone => by simp [hlimit] at hnone
      polls_le := hs.pollsBelow hwait } }
  | fetch c plan hlen =>
    exact { hx with data := { hx.data with
      trace := traceLegal_append hx.data.trace (by simpa [eventLegal] using hlen)
      packed := blockPacked_storeBlock hlen _ } }

theorem Accesses.pc_cmd_cfg (h : Accesses s e u) : u.pc = s.pc ∧ u.cmd = s.cmd ∧ u.cfg = s.cfg := by
  cases h <;> exact ⟨rfl, rfl, rfl⟩

/-- A bound on the polls is at least 1 (R7). -/
theorem limit_pos_of_valid {c : Config} (hv : c.valid = true) : ∀ limit ∈ c.pollLimit, 0 < limit := by
  intro limit hl
  rw [Option.mem_def] at hl
  simp only [Config.valid, hl, Bool.and_eq_true, decide_eq_true_eq, ne_eq, Option.some.injEq] at hv
  omega

/-- A run that goes on to another of its majors, at its first phase, meets the invariant, provided `polls` is
within its bound there. -/
theorem Executing.inv_run {m : Major} (h : Executing .runConfiguration u) (hpc : u.pc = ⟨m, .m0⟩)
    (hm : isRun m = true) (hw : isWait m = true → PollsBelow u) : u.Inv := by
  refine h.inv ?_ ?_ (by simp [BeforeLoaderWrite, hpc]) (by rwa [hpc])
  · cases m <;> simp_all [isRun, inProgress]
  · cases m <;> simp_all [isRun, pcLegal]

/-- Past a major step of the command in progress the invariant holds: the next major of the run, a wait being
entered with `polls` 0, or the end of the command. -/
theorem Executing.inv_afterMajor (h : Executing i u) (hi : inProgress s = some i) (hv : u.cfg.valid = true) :
    (afterMajor s.pc.major u).Inv := by
  have hgoto (m : Major) (hrun : i = .runConfiguration) (hm : isRun m = true) (hw : isWait m = false) :
      (goto m .m0 u).Inv :=
    Executing.inv_run (m := m) { hrun ▸ h with data := { h.data with } } rfl hm (by simp [hw])
  have hwait (m : Major) (hrun : i = .runConfiguration) (hm : isRun m = true) : (enterWait m u).Inv :=
    Executing.inv_run (m := m)
      { hrun ▸ h with data := { h.data with polls_baseline := fun _ => rfl, polls_le := fun _ _ => Nat.zero_le _ } }
      rfl hm (fun _ => limit_pos_of_valid hv)
  cases hm : s.pc.major <;> simp only [inProgress, hm, Option.some.injEq] at hi
  case idle => cases hi
  case run3 | run6 | run9 => exact hwait _ hi.symm rfl
  case run12 | cmdReport | cmdReset | cmdLoad | cmdSetf => exact h.data.inv_finish .ok
  all_goals exact hgoto _ hi.symm rfl rfl

/-- However the sequence goes on after its access, the invariant holds. -/
theorem MovesOn.inv (h : MovesOn s u t) (hs : s.Inv) (hx : Executing i u) (hi : inProgress s = some i)
    (hpc : u.pc = s.pc) (hcmd : u.cmd = s.cmd) (hv : u.cfg.valid = true) : t.Inv := by
  cases h with
  | phase k hlegal hwait hbytes =>
    have hx' : Executing i (goto s.pc.major k u) := { hx with data := { hx.data with } }
    have hi' : inProgress (goto s.pc.major k u) = some i := by
      rw [← hi]
      exact inProgress_congr rfl hcmd
    exact hx'.inv hi' hlegal hbytes (by simp [hwait])
  | done => exact hx.inv_afterMajor hi hv
  | ends r => exact hx.data.inv_finish r
  | waits hwait hlimit =>
    have hi' : inProgress t = some i := (inProgress_congr (by rw [hpc]) hcmd).trans hi
    have hno : ¬ BeforeLoaderWrite t.pc := by
      rw [hpc]
      rintro (h | h) <;> simp [h, isWait] at hwait
    exact hx.inv hi' (hpc ▸ hs.pc_legal) (fun h => absurd h hno) fun _ l hl =>
      lt_of_le_of_ne (hx.data.polls_le l hl) (hlimit l hl)

/-! ### The gap and the step -/

/-- After a block reset the invariant holds whatever the state was. -/
theorem inv_blockReset (s : State) : (blockReset s).Inv := by
  have hd : DataSound (blockReset s) :=
    { packed := by simp [BlockPacked, State.reset, pack4]
      polls_baseline := fun _ => rfl
      polls_le := fun _ _ => Nat.zero_le _
      trace := by simp [TraceLegal, State.reset] }
  exact hd.inv_of_idle rfl rfl (by simp [State.reset])

/-- Settles O40: the state after reset is its own block reset. -/
theorem resetMeetsTheInvariant : Obligations.ResetMeetsTheInvariant := inv_blockReset State.reset

/-- The invariant looks at nothing a move can change, but for the window flag, which no move changes while the
block is busy (U19), and but for a block reset. -/
theorem inv_applyMove (h : s.Inv) (m : EnvMove) : (applyMove s m).Inv := by
  cases m with
  | showStat | showCtrl | showGpio | offerCommand | supplyImage => exact h
  | setWinMapped b =>
    rw [applyMove]
    split
    · exact h
    · rename_i hb
      obtain ⟨hbusy, hpc, hres, hcmd, -, hload, hpolls, htr⟩ := h
      exact ⟨hbusy, hpc, hres, hcmd, fun hb' => absurd hb' hb, hload, hpolls, htr⟩
  | blockReset => exact inv_blockReset s

theorem inv_applyEnv (h : s.Inv) : (applyEnv s).Inv :=
  applyEnv_induct s (fun _ _ m _ _ hu => inv_applyMove hu m) (fun _ _ hu => hu) h

/-- The step of the block keeps the invariant: in IDLE because of what acceptance makes of the registers, busy
because the access and the move of the sequence stay inside the command in progress. -/
theorem inv_blockStep (h : s.Inv) (hv : s.cfg.valid = true) (hstep : blockStep s = .next t) :
    t.Inv := by
  by_cases hm : s.pc.major = .idle
  · obtain ⟨-, rfl⟩ | ⟨w, rest, -, haccept⟩ := blockStep_idle_next hstep hm
    · exact h
    · have hd := h.dataSound
      exact haccept.inv { hd with trace := traceLegal_append hd.trace rfl } rfl rfl
  · obtain ⟨i, hi, hx⟩ := h.executing hm
    obtain ⟨-, -, -, -, rfl⟩ | ⟨e, u, haccess, hmove⟩ := blockStep_busy_next hstep hm
    · exact h.dataSound.inv_finish _
    · obtain ⟨hpc, hcmd, hcfg⟩ := haccess.pc_cmd_cfg
      exact hmove.inv h (haccess.executing h hx) hi hpc hcmd (hcfg ▸ hv)

/-- Settles O41: the moves of the gap keep the invariant (`inv_applyEnv`), and so does the step of the
block (`inv_blockStep`). -/
theorem stepKeepsTheInvariant : Obligations.StepKeepsTheInvariant := by
  intro s t hs hstep
  obtain ⟨hv, hblock⟩ := step_next.mp hstep
  exact inv_blockStep (inv_applyEnv hs) (by rwa [applyEnv_cfg]) hblock

/-! ### Progress -/

/-- In IDLE there is always a step. -/
theorem blockStep_idle_progress (hpc : s.pc = ⟨.idle, .m0⟩) : ∃ t, blockStep s = .next t := by
  cases hport : s.cmdPort with
  | nil => exact ⟨_, blockStep_no_word hpc hport⟩
  | cons w rest =>
    cases hd : decodeCmd w with
    | none => exact ⟨_, blockStep_illegal_word hpc hport hd⟩
    | some i =>
      rw [blockStep_word hpc hport hd, exec_idle hd (by simp [hpc]), acceptStep, hpc]
      exact ⟨_, rfl⟩

theorem reportStep_progress (k : State → State) (s : State) : ∃ t, reportStep k s = .next t := by
  unfold reportStep
  cases s.pc.minor <;> exact ⟨_, rfl⟩

theorem controlFieldStep_progress {f : CtrlField} {val : Nat} {g k : State → State}
    (hm : s.pc.minor ≠ .m2) : ∃ t, controlFieldStep f val g k s = .next t := by
  unfold controlFieldStep
  cases fitsField (ctrlDesc f) val <;> cases h : s.pc.minor <;> simp_all

theorem statusModeStep_progress {val : Nat} {g k : State → State}
    (hm : s.pc.minor ≠ .m2) : ∃ t, statusModeStep val g k s = .next t := by
  unfold statusModeStep
  cases fitsField modeDesc val <;> cases h : s.pc.minor <;> simp_all

theorem waitStep_progress {mode : BitVec 3} {k : State → State} (hm : s.pc.minor = .m0) :
    ∃ t, waitStep mode k s = .next t := by
  unfold waitStep
  cases s.cfg.pollLimit <;> simp only [hm] <;> split_ifs <;> exact ⟨_, rfl⟩

theorem loadStep_progress {k : State → State} (hm : s.pc.minor ≠ .m2) : ∃ t, loadStep k s = .next t := by
  unfold loadStep
  cases h : s.pc.minor <;> simp_all

/-- Only a report has a third phase (R21). -/
theorem minor_ne_m2 {p : Pc} (hp : pcLegal p = true) (hm : p.major ∉ [.run1, .run12, .cmdReport]) :
    p.minor ≠ .m2 := by
  obtain ⟨major, minor⟩ := p
  rintro rfl
  cases major <;> simp_all [pcLegal]

/-- IDLE and the waits have one phase (R21). -/
theorem minor_eq_m0 {p : Pc} (hp : pcLegal p = true) (hm : p.major = .idle ∨ isWait p.major = true) :
    p.minor = .m0 := by
  obtain ⟨major, minor⟩ := p
  cases minor <;> cases major <;> simp_all [pcLegal, isWait]

/-- A read-modify-write of CTRL in a command in progress has its field and a value that fits: the setters' were
checked at acceptance, the run's are constants of the width of their field. -/
theorem fieldAt_fits (hm : s.pc.major ∈ ctrlWriters) (hi : inProgress s = some i) (hfits : valueFits i = true) :
    ∃ f val, fieldAt s = some (f, val) ∧ fitsField (ctrlDesc f) val = true := by
  by_cases hset : s.pc.major = .cmdSetf
  · simp only [inProgress, hset] at hi
    split at hi <;> rename_i hd <;> cases hi
    all_goals
      refine ⟨_, _, ?_, hfits⟩
      simp only [fieldAt, hset, hd]
  · have hratio : s.cfg.cdratioConst.toNat ≤ 3 := by omega
    cases hmaj : s.pc.major <;> simp_all [ctrlWriters, fieldAt, fitsField, ctrlDesc]

/-- Busy inside the table of R21, with the command in progress held, there is always a step. -/
theorem blockStep_busy_progress (hi : inProgress s = some i) (hfits : valueFits i = true)
    (hpc : pcLegal s.pc = true) : ∃ t, blockStep s = .next t := by
  have hnot := minor_ne_m2 hpc
  cases hm : s.pc.major <;> rw [hm] at hnot
  case idle => simp [inProgress, hm] at hi
  case run1 | run12 | cmdReport =>
    rw [blockStep_report (by simp [hm])]
    exact reportStep_progress _ s
  case run4 | run7 | run10 =>
    rw [blockStep_wait (by rw [hm]; rfl)]
    exact waitStep_progress (minor_eq_m0 hpc (.inr (by rw [hm]; rfl)))
  case run9 | cmdLoad =>
    rw [blockStep_load (by simp [hm])]
    exact loadStep_progress (hnot (by simp))
  case cmdReset =>
    rw [blockStep_reset hm]
    exact statusModeStep_progress (hnot (by simp))
  all_goals
    obtain ⟨f, val, hf, -⟩ := fieldAt_fits (by simp [hm, ctrlWriters]) hi hfits
    rw [blockStep_field hf]
    exact controlFieldStep_progress (hnot (by simp))

theorem blockStep_progress (h : s.Inv) : ∃ t, blockStep s = .next t := by
  by_cases hm : s.pc.major = .idle
  · have hminor := minor_eq_m0 h.pc_legal (.inl hm)
    exact blockStep_idle_progress (by rw [← hm, ← hminor])
  · obtain ⟨i, hi, hx⟩ := h.executing hm
    exact blockStep_busy_progress hi hx.fits h.pc_legal

/-- Settles O42, by induction on the number of steps: a state of the invariant has a step (`blockStep_progress`),
which meets the invariant and has the same parameters. -/
theorem invariantStatesAlwaysStep : Obligations.InvariantStatesAlwaysStep := by
  intro s hs hv k
  induction k generalizing s with
  | zero => exact ⟨s, rfl, hs⟩
  | succ k ih =>
    obtain ⟨t, hblock⟩ := blockStep_progress (inv_applyEnv hs)
    have hstep : step s = .next t := step_next.mpr ⟨hv, hblock⟩
    have hcfg : t.cfg = s.cfg := parametersNeverChange s t hstep
    obtain ⟨u, hrun, hu⟩ := ih t (stepKeepsTheInvariant s t hs hstep) (hcfg ▸ hv)
    exact ⟨u, by rw [runSteps, hstep]; exact hrun, hu⟩

end Sys2Proof.Machine
end

section
/-! PROOF. The events of one step and what it leaves of the device (R22, R33, R38, R108, R171), read off its
access and its move; and the step, the reset and the block reset case by case. -/

namespace Sys2Proof.Machine

variable {s t u : State} {e : Event} {es : List Event}

/-! ### The events of a step -/

/-- From a state of the invariant a busy step makes its access: no read-modify-write is refused. -/
theorem State.Inv.busy_next (h : s.Inv) (hm : s.pc.major ≠ .idle) (hstep : blockStep s = .next t) :
    ∃ e u, Accesses s e u ∧ MovesOn s u t := by
  obtain ⟨f, val, hf, hunfit, -⟩ | hmoves := blockStep_busy_next hstep hm
  · obtain ⟨i, hi, hx⟩ := h.executing hm
    obtain ⟨f', val', hf', hfit⟩ := fieldAt_fits (fieldAt_major hf) hi hx.fits
    obtain ⟨rfl, rfl⟩ := Prod.mk.inj (Option.some.inj (hf.symm.trans hf'))
    simp [hunfit] at hfit
  · exact hmoves

/-- An access and the move after it add the event of the access, and RES at most. -/
theorem Accesses.events (h : Accesses s e u) (hmove : MovesOn s u t) :
    t.trace = s.trace ++ [e] ∨ t.trace = s.trace ++ [e, .res t.result] := by
  obtain hu | hu := hmove.trace <;> rw [hu, h.trace]
  · exact .inl rfl
  · exact .inr (List.append_assoc ..)

/-- Taking a word off the port adds CMD, and RES at most. -/
theorem Accepts.events {w : Halfword} {rest : List Halfword}
    (h : Accepts (latchCommand w { s with cmdPort := rest }) t) :
    t.trace = s.trace ++ [.cmd w] ∨ t.trace = s.trace ++ [.cmd w, .res t.result] := by
  obtain ht | ht := h.trace <;> rw [ht]
  · exact .inl rfl
  · exact .inr (List.append_assoc ..)

/-- Settles O43: outside IDLE the step is an access and a move, in IDLE a wait or the latching of a word. -/
theorem oneEventPerStep : Obligations.OneEventPerStep := by
  intro s t hs hstep
  by_cases hm : s.pc.major = .idle
  · obtain ⟨hport, rfl⟩ | ⟨w, rest, hport, haccept⟩ := blockStep_idle_next hstep hm
    · exact ⟨[], by simp, fun hbusy => absurd hm hbusy, fun _ => .inl ⟨hport, rfl⟩⟩
    · have hhead : s.cmdPort.head? = some w := by simp [hport]
      obtain ht | ht := haccept.events
      · exact ⟨_, ht, fun hbusy => absurd hm hbusy, fun _ => .inr ⟨w, hhead, .inl rfl⟩⟩
      · exact ⟨_, ht, fun hbusy => absurd hm hbusy, fun _ => .inr ⟨w, hhead, .inr rfl⟩⟩
  · obtain ⟨e, u, haccess, hmove⟩ := hs.busy_next hm hstep
    obtain ht | ht := haccess.events hmove
    · exact ⟨_, ht, fun _ => ⟨e, haccess.isAccess, .inl rfl⟩, fun hidle => absurd hidle hm⟩
    · exact ⟨_, ht, fun _ => ⟨e, haccess.isAccess, .inr rfl⟩, fun hidle => absurd hidle hm⟩

/-- A bus or image event among those a step adds, in any state, is the access of that step. -/
theorem accesses_of_mem (h : blockStep s = .next t) (ht : t.trace = s.trace ++ es) (he : e ∈ es)
    (hacc : isAccess e = true) : ∃ u, Accesses s e u ∧ MovesOn s u t := by
  have hes {l : List Event} (hl : t.trace = s.trace ++ l) : e ∈ l := List.append_cancel_left (ht ▸ hl) ▸ he
  by_cases hm : s.pc.major = .idle
  · obtain ⟨-, rfl⟩ | ⟨w, rest, -, haccept⟩ := blockStep_idle_next h hm
    · simpa using hes (List.append_nil _).symm
    · obtain hl | hl := haccept.events <;> have hmem := hes hl <;>
        simp only [List.mem_cons, List.not_mem_nil, or_false] at hmem
      · exact absurd hacc (by simp [hmem, isAccess])
      · exact absurd hacc (by rcases hmem with rfl | rfl <;> simp [isAccess])
  · obtain ⟨f, val, -, -, rfl⟩ | ⟨e', u, haccess, hmove⟩ := blockStep_busy_next h hm
    · have hmem := List.mem_singleton.mp (hes (finish_trace s _))
      exact absurd hacc (by simp [hmem, isAccess])
    · obtain hl | hl := haccess.events hmove <;> have hmem := hes hl <;>
        simp only [List.mem_cons, List.not_mem_nil, or_false] at hmem
      · exact ⟨u, hmem ▸ haccess, hmove⟩
      · rcases hmem with rfl | rfl
        · exact ⟨u, haccess, hmove⟩
        · cases hacc

/-! ### What a step leaves of the device -/

/-- Settles O47: the frame of the access made, and of the move after it (`MovesOn.frame`). -/
theorem deviceChangesOnlyByItsWrite : Obligations.DeviceChangesOnlyByItsWrite := by
  intro s t h
  by_cases hm : s.pc.major = .idle
  · obtain ⟨-, rfl⟩ | ⟨w, rest, -, haccept⟩ := blockStep_idle_next h hm
    · simp
    · rw [haccept.frame]
      simp [hm]
  · obtain ⟨f, val, -, -, rfl⟩ | ⟨e, u, haccess, hmove⟩ := blockStep_busy_next h hm
    · simp
    · rw [hmove.frame]
      cases haccess with
      | writeCtrl f val hf hminor =>
        have hwriter : s.pc.minor = .m1 ∧ s.pc.major ∈ ctrlWriters := ⟨hminor, fieldAt_major hf⟩
        exact ⟨rfl, rfl, rfl, rfl, rfl, fun _ => ⟨rfl, rfl⟩, fun hno => absurd hwriter hno, fun _ _ => rfl,
          fun _ => rfl⟩
      | writeStat hpc => simp [hpc]
      | writeData hpc => rcases hpc with hpc | hpc <;> simp [hpc]
      | _ => simp

/-- A halfword write among the events of a step is the write half of the read-modify-write that stands at its
`pc`, and CTRL becomes the value written. -/
theorem blockStep_wr16 {a : Nat} {v : Halfword} (h : blockStep s = .next t) (ht : t.trace = s.trace ++ es)
    (he : .wr16 a v ∈ es) :
    ∃ f val, fieldAt s = some (f, val) ∧ a = ctrlAddr s.cfg ∧ v = insertField (ctrlDesc f) s.ctl val ∧
      t.ctrlReg = v := by
  obtain ⟨u, haccess, hmove⟩ := accesses_of_mem h ht he rfl
  rw [hmove.frame]
  cases haccess with
  | writeCtrl f val hf => exact ⟨f, val, hf, rfl, rfl, rfl⟩

/-- A byte write among the events of a step is that of the command `reset`. -/
theorem blockStep_wr8 {a : Nat} {v : Byte} (h : blockStep s = .next t) (ht : t.trace = s.trace ++ es)
    (he : .wr8 a v ∈ es) : a = statAddr s.cfg ∧ v = insertField modeDesc s.st 1 := by
  obtain ⟨u, haccess, -⟩ := accesses_of_mem h ht he rfl
  cases haccess with
  | writeStat => exact ⟨rfl, rfl⟩

/-- Inserting a field keeps every bit outside the field's mask. -/
theorem insertField_and_of_disjoint {d : FieldDesc} {size : Nat} {m : BitVec size}
    (hd : fieldMask d size &&& m = 0) (old : BitVec size) (val : Nat) :
    insertField d old val &&& m = old &&& m := by
  ext k hk
  have hbit : (fieldMask d size)[k] = true → m[k] = false := by simpa using congrArg (·[k]) hd
  cases hmask : (fieldMask d size)[k]
  · simp [insertField, hmask]
  · simp [hbit hmask]

/-- The unnamed bits of CTRL and `cfgwdth` (mask 0xFE3A) are outside every field a sequence writes (R33). -/
theorem insertField_ctrl_unnamed {f : CtrlField} (hf : f ≠ .cfgwdth) (old : Halfword) (val : Nat) :
    insertField (ctrlDesc f) old val &&& 0xFE3A = old &&& 0xFE3A := by
  refine insertField_and_of_disjoint ?_ old val
  cases f with
  | cfgwdth => exact absurd rfl hf
  | _ => decide

/-- Settles O48: the write is that of `blockStep_wr16`, whose field is never `cfgwdth`. -/
theorem controlWritesPreserveUnnamedBits : Obligations.ControlWritesPreserveUnnamedBits := by
  intro s t a v es h ht
  obtain ⟨f, val, hf, rfl, rfl, hctrl⟩ := blockStep_wr16 h ht List.mem_cons_self
  exact ⟨rfl, hctrl, insertField_ctrl_unnamed (fieldAt_ne_cfgwdth hf) s.ctl val⟩

/-- Bit 9 lies under the mask 0xFE3A. -/
theorem cfgwdth_of_unnamed {v v' : Halfword} (h : v &&& 0xFE3A = v' &&& 0xFE3A) :
    (v.extractLsb' 9 1 : BitVec 1) = v'.extractLsb' 9 1 := by
  have hbit := congrArg (·.getLsbD 9) h
  ext k hk
  obtain rfl : k = 0 := by omega
  simpa using hbit

/-- Settles O56: a halfword write carries bit 9 as read (`insertField_ctrl_unnamed`), a byte write is that of
`reset`, which inserts mode 1. -/
theorem noCommandWritesCfgwdthOrAnotherMode : Obligations.NoCommandWritesCfgwdthOrAnotherMode := by
  intro s t es h ht
  refine ⟨fun a v he => ?_, fun a v he => ?_⟩
  · obtain ⟨f, val, hf, rfl, rfl, -⟩ := blockStep_wr16 h ht he
    exact ⟨rfl, cfgwdth_of_unnamed (insertField_ctrl_unnamed (fieldAt_ne_cfgwdth hf) s.ctl val)⟩
  · obtain ⟨rfl, rfl⟩ := blockStep_wr8 h ht he
    have hkeep : ~~~ fieldMask modeDesc 8 = 0xF8 := by decide
    have hmode : BitVec.ofNat 8 1 <<< modeDesc.shift &&& fieldMask modeDesc 8 = 0x01 := by decide
    exact ⟨rfl, by rw [insertField, hkeep, hmode]⟩

/-! ### The step, the reset and the block reset, case by case -/

/-- Settles O38: the step is that of the block after the gap, which runs the command. -/
theorem stepRunsTheDecodedOperation : Obligations.StepRunsTheDecodedOperation := by
  intro s
  refine ⟨fun hv => by simp [step, hv], fun hv => ?_⟩
  have hstep : step s = blockStep (applyEnv s) := by simp [step, hv]
  rw [hstep]
  exact ⟨fun w rest i => blockStep_word, fun i => blockStep_in_progress, blockStep_no_word⟩

/-- Settles O52: `blockReset` takes the block's own registers from the state after reset and the rest from the
state it finds; the trace it begins is empty. -/
theorem resetValues : Obligations.ResetValues := by
  refine ⟨?_, fun s => ?_⟩
  · rintro u (rfl | ⟨s, rfl⟩) <;> exact ⟨rfl, rfl, rfl, rfl, rfl, rfl, rfl, rfl, rfl, rfl, rfl, rfl⟩
  · simp [applyMove, State.reset]

end Sys2Proof.Machine
end

section
/-! PROOF. The addresses of the window (R61, R65, R66); and the read-modify-writes one half at a time, with the
gap between the halves in which another agent may write (R70, R293). -/

namespace Sys2Proof.Machine

variable {s t u : State}

/-! ### The addresses -/

/-- The preconditions of R7, R65 and R66 on the bases and the extents. -/
theorem window_of_valid {c : Config} (hv : c.valid = true) :
    c.csrBase % 4 = 0 ∧ c.dataBase % 4 = 0 ∧ 0x842 ≤ c.csrExtent ∧ 4 ≤ c.dataExtent ∧
    (c.csrBase + c.csrExtent ≤ c.dataBase ∨ c.dataBase + c.dataExtent ≤ c.csrBase) := by
  simp only [Config.valid, Bool.and_eq_true, Bool.or_eq_true, decide_eq_true_eq] at hv
  obtain ⟨⟨⟨⟨⟨hcsr, hdata⟩, hcsrExt⟩, hdataExt⟩, hdisjoint⟩, -⟩ := hv
  exact ⟨hcsr, hdata, hcsrExt, hdataExt, hdisjoint⟩

/-- Settles O50: the greatest offset of R61 is 0x840, of a halfword, and the least extent is 0x842; offsets and
bases are even, and the ranges lie one after the other (`window_of_valid`). -/
theorem addressesAlignedAndInside : Obligations.AddressesAlignedAndInside := by
  intro c hv
  obtain ⟨hcsr, hdata, hcsrExt, hdataExt, hdisjoint⟩ := window_of_valid hv
  have hinside {off : Nat} (hoff : off ≤ 0x840) :
      c.csrBase ≤ c.csrBase + off ∧ c.csrBase + off + 2 ≤ c.csrBase + c.csrExtent := by omega
  refine ⟨rfl, rfl, rfl, rfl, ?_, ?_, hdata, ?_, le_refl _, Nat.add_le_add_left hdataExt _, ?_⟩
  · rw [ctrlAddr]; omega
  · rw [gpioAddr]; omega
  · simp only [List.forall_mem_cons]
    exact ⟨hinside (by decide), hinside (by decide), hinside (by decide), by simp⟩
  · omega

/-! ### Steps with the gap before them -/

/-- The gap makes the moves at the head of the schedule. -/
theorem applyEnv_of_cons {ms : List EnvMove} {rest : List (List EnvMove)} (h : s.env = ms :: rest) :
    applyEnv s = applyMoves ms { s with env := rest } := by
  rw [applyEnv, h]

theorem runSteps_two (h : step s = .next u) (h' : step u = .next t) : runSteps 2 s = .next t := by
  simp [runSteps, h, h']

/-! ### The halves of a read-modify-write -/

/-- The field and value depend on the major step, the command word and the parameters alone. -/
theorem fieldAt_congr (hm : t.pc.major = s.pc.major) (hcmd : t.cmd = s.cmd) (hcfg : t.cfg = s.cfg) :
    fieldAt t = fieldAt s := by
  simp [fieldAt, hm, hcmd, hcfg]

/-- In its two phases a read-modify-write of CTRL is the micro-operation on its field. -/
theorem microOpAt_of_fieldAt {f : CtrlField} {val : Nat} (hf : fieldAt s = some (f, val))
    (hphase : s.pc.minor = .m0 ∨ s.pc.minor = .m1) : microOpAt s = some (.writeControlField f val) := by
  unfold fieldAt at hf
  split at hf
  case h_8 hm =>
    split at hf <;> rename_i hd <;> cases hf <;> rcases hphase with hk | hk <;> simp [microOpAt, hm, hk, hd]
  all_goals
    rename_i hm
    cases hf <;> rcases hphase with hk | hk <;> simp [microOpAt, hm, hk]

/-- The read half (R122). -/
theorem blockStep_field_read {f : CtrlField} {val : Nat} (hf : fieldAt s = some (f, val))
    (hfits : fitsField (ctrlDesc f) val = true) (hminor : s.pc.minor = .m0) :
    blockStep s = .next (goto s.pc.major .m1 (readCtrl s)) := by
  rw [blockStep_field hf]
  exact controlFieldStep_next.mpr (.inr (.inl ⟨hfits, hminor, rfl⟩))

/-- The write half (R122): the value comes from `ctl`, whatever CTRL holds by now. -/
theorem blockStep_field_write {f : CtrlField} {val : Nat} (hf : fieldAt s = some (f, val))
    (hfits : fitsField (ctrlDesc f) val = true) (hminor : s.pc.minor = .m1) :
    blockStep s =
      .next (afterMajor s.pc.major (writeCtrl (insertField (ctrlDesc f) s.ctl val) s)) := by
  rw [blockStep_field hf]
  exact controlFieldStep_next.mpr (.inr (.inr ⟨hfits, hminor, rfl⟩))

/-- The read half of `reset` (R123). -/
theorem blockStep_reset_read (hpc : s.pc = ⟨.cmdReset, .m0⟩) :
    blockStep s = .next (goto .cmdReset .m1 (readStat s)) := by
  rw [blockStep_reset (by rw [hpc])]
  exact statusModeStep_next.mpr (.inr (.inl ⟨by decide, by rw [hpc], rfl⟩))

/-- The write half of `reset` (R123, R219): the byte comes from `st`, whatever STAT shows by now. -/
theorem blockStep_reset_write (hpc : s.pc = ⟨.cmdReset, .m1⟩) :
    blockStep s = .next (finish .ok (writeStat (insertField modeDesc s.st 1) s)) := by
  rw [blockStep_reset (by rw [hpc])]
  exact statusModeStep_next.mpr (.inr (.inr ⟨by decide, by rw [hpc], rfl⟩))

/-! ### What follows the write half -/

theorem afterMajor_ctrlReg (m : Major) (u : State) : (afterMajor m u).ctrlReg = u.ctrlReg := by
  rw [(afterMajor_frame m u).1]

/-- After a write of CTRL a setter reports `Ok`; a run goes on with no further event. -/
theorem afterMajor_trace_of_ctrlWriter {m : Major} (hm : m ∈ ctrlWriters) (u : State) :
    (afterMajor m u).trace = u.trace ++ (if m = .cmdSetf then [.res 1] else []) := by
  cases m <;> simp_all [ctrlWriters, afterMajor, resultCode]

/-- `insert(mode, old, 1)` keeps the upper five bits and makes the lower three 001 (R123). -/
theorem insertField_mode_one (old : Byte) : insertField modeDesc old 1 = (old &&& 0xF8) ||| 0x01 := by
  have hkeep : ~~~ fieldMask modeDesc 8 = 0xF8 := by decide
  have hmode : BitVec.ofNat 8 1 <<< modeDesc.shift &&& fieldMask modeDesc 8 = 0x01 := by decide
  rw [insertField, hkeep, hmode]

/-! ### The lost update -/

/-- `s` after its read of CTRL and another agent's write of `other` in the gap after it. -/
def ctrlOverwritten (other : Halfword) (later : List (List EnvMove)) (s : State) : State :=
  { goto s.pc.major .m1 (readCtrl s) with ctrlReg := other, env := later }

/-- From the read half of a read-modify-write of CTRL, with another agent's write of CTRL scheduled between the
halves, two steps write back the value read with the field set. -/
theorem runSteps_ctrl_rmw {f : CtrlField} {val : Nat} {other : Halfword} {later : List (List EnvMove)}
    (hv : s.cfg.valid = true) (hf : fieldAt s = some (f, val)) (hfits : fitsField (ctrlDesc f) val = true)
    (hminor : s.pc.minor = .m0) (henv : s.env = [] :: [.showCtrl other] :: later) :
    runSteps 2 s = .next (afterMajor s.pc.major
      (writeCtrl (insertField (ctrlDesc f) s.ctrlReg val) (ctrlOverwritten other later s))) := by
  have hread : step s = .next (goto s.pc.major .m1 (readCtrl { s with env := [.showCtrl other] :: later })) :=
    step_next.mpr ⟨hv, by rw [applyEnv_of_cons henv]; exact blockStep_field_read hf hfits hminor⟩
  have hf' : fieldAt (ctrlOverwritten other later s) = some (f, val) := (fieldAt_congr rfl rfl rfl).trans hf
  have hwrite := blockStep_field_write hf' hfits rfl
  exact runSteps_two hread (step_next.mpr ⟨hv, hwrite⟩)

/-- `s` after its read of STAT and the device's change of STAT to `other` in the gap after it. -/
def statOverwritten (other : Byte) (later : List (List EnvMove)) (s : State) : State :=
  { goto .cmdReset .m1 (readStat s) with statReg := other, env := later }

/-- From the read half of `reset`, with a change of STAT scheduled between the halves, two steps write back the
byte read with mode 1. -/
theorem runSteps_stat_rmw {other : Byte} {later : List (List EnvMove)} (hv : s.cfg.valid = true)
    (hpc : s.pc = ⟨.cmdReset, .m0⟩) (henv : s.env = [] :: [.showStat other] :: later) :
    runSteps 2 s =
      .next (finish .ok (writeStat (insertField modeDesc s.statReg 1) (statOverwritten other later s))) := by
  have hread : step s = .next (goto .cmdReset .m1 (readStat { s with env := [.showStat other] :: later })) :=
    step_next.mpr ⟨hv, by rw [applyEnv_of_cons henv]; exact blockStep_reset_read hpc⟩
  have hwrite := blockStep_reset_write (s := statOverwritten other later s) rfl
  exact runSteps_two hread (step_next.mpr ⟨hv, hwrite⟩)

/-- Settles O54: the write half takes its value from the working register, which still holds what the read half
read (`runSteps_ctrl_rmw`, `runSteps_stat_rmw`); in a state of the invariant the value fits its field. -/
theorem readModifyWriteLosesAnUpdate : Obligations.ReadModifyWriteLosesAnUpdate := by
  refine ⟨fun s other later hs hv hminor hwriter henv => ?_, fun s other later hv hpc henv => ?_⟩
  · have hbusy : s.pc.major ≠ .idle := fun hidle => by simp [hidle, ctrlWriters] at hwriter
    obtain ⟨i, hi, hx⟩ := hs.executing hbusy
    obtain ⟨f, val, hf, hfits⟩ := fieldAt_fits hwriter hi hx.fits
    refine ⟨f, val, _, microOpAt_of_fieldAt hf (.inl hminor),
      runSteps_ctrl_rmw hv hf hfits hminor henv, afterMajor_ctrlReg .., ?_⟩
    rw [afterMajor_trace_of_ctrlWriter hwriter, afterMajor_ctrlReg]
    simp [ctrlOverwritten, ctrlAddr]
  · refine ⟨_, runSteps_stat_rmw hv hpc henv, rfl, ?_⟩
    simp [statOverwritten, statAddr, insertField_mode_one, resultCode]

end Sys2Proof.Machine
end

section
/-! PROOF. The encodings (R102, R103, R106, R107, log 14). A word is built of lanes, each a part shifted to its
place, and each part is read back at its place; hence decoder and encoder are inverse to each other, first for the
commands, then for the micro-operations. -/

namespace Sys2Proof.Machine

/-! ### Lanes of a word -/

/-- A part shifted to its place is read back there. -/
theorem extract_lane {len size place : Nat} (x : BitVec len) (h : place + len ≤ size) :
    (x.setWidth size <<< place).extractLsb' place len = x := by
  ext k hk
  simp [show place + k < size by omega, hk]

/-- Elsewhere a shifted part leaves zeros. -/
theorem extract_other_lane {len size place start len' : Nat} (x : BitVec len)
    (h : start + len' ≤ place ∨ place + len ≤ start) :
    (x.setWidth size <<< place).extractLsb' start len' = 0 := by
  ext k hk
  rcases h with h | h
  · simp [show start + k < place by omega]
  · simp [BitVec.getLsbD_of_ge x (start + k - place) (by omega)]

/-- The lowest part, which stands unshifted. -/
theorem extract_lowest_lane {len size : Nat} (x : BitVec len) (h : len ≤ size) :
    (x.setWidth size).extractLsb' 0 len = x := by
  simpa using extract_lane (place := 0) x (by simpa using h)

/-- Above the lowest part. -/
theorem extract_above_lowest_lane {len size start len' : Nat} (x : BitVec len) (h : len ≤ start) :
    (x.setWidth size).extractLsb' start len' = 0 := by
  simpa using extract_other_lane (size := size) (place := 0) (len' := len') x (.inr (by simpa using h))

/-! ### The command word: `op[15:12] 0000 val[7:0]` (R102) -/

@[simp] theorem cmd16_op (op : BitVec 4) (val : BitVec 8) : (cmd16 op val).extractLsb' 12 4 = op := by
  simp [cmd16, BitVec.extractLsb'_or, extract_lane, extract_above_lowest_lane]

@[simp] theorem cmd16_zero (op : BitVec 4) (val : BitVec 8) : (cmd16 op val).extractLsb' 8 4 = 0#4 := by
  simp [cmd16, BitVec.extractLsb'_or, extract_other_lane, extract_above_lowest_lane]

@[simp] theorem cmd16_val (op : BitVec 4) (val : BitVec 8) : (cmd16 op val).extractLsb' 0 8 = val := by
  simp [cmd16, BitVec.extractLsb'_or, extract_other_lane, extract_lowest_lane]

/-- Two halfwords with the same high byte and the same low byte are equal. -/
theorem eq_of_bytes {v w : Halfword} (hhigh : v &&& 0xFF00 = w &&& 0xFF00)
    (hlow : (v.extractLsb' 0 8 : BitVec 8) = w.extractLsb' 0 8) : v = w := by
  have hmask (u : Halfword) : (u &&& 0xFF00).extractLsb' 8 8 = u.extractLsb' 8 8 := by
    rw [BitVec.extractLsb'_and]
    exact BitVec.and_allOnes
  have hbytes (u : Halfword) : u.extractLsb' 8 8 ++ u.extractLsb' 0 8 = u :=
    BitVec.extractLsb'_append_extractLsb' (w := 8) (len := 8)
  rw [← hbytes v, ← hbytes w, ← hmask v, hhigh, hmask w, hlow]

/-- A command word is known by its opcode under the mask 0xFF00 and its low byte (R103). -/
theorem eq_cmd16_iff {w : Halfword} {op : BitVec 4} {val : BitVec 8} :
    w = cmd16 op val ↔ w &&& 0xFF00 = op.setWidth 16 <<< 12 ∧ val = w.extractLsb' 0 8 := by
  have hopcode : cmd16 op val &&& 0xFF00 = op.setWidth 16 <<< 12 := Laws.TableRow.cmd16_opcode op val
  constructor
  · rintro rfl
    exact ⟨hopcode, (cmd16_val op val).symm⟩
  · rintro ⟨hhigh, hval⟩
    exact eq_of_bytes (hhigh.trans hopcode.symm) (by rw [cmd16_val, hval])

/-! ### Commands -/

theorem encode_of_command {i : Instr} (hf : (encode i).format = .cmd16) :
    encode i = ⟨.cmd16, cmdWord i, 0, 0⟩ := by
  cases i with
  | readStatus | writeStatusMode | readControl | writeControlField | readGpioInterruptStatus | dataPortWrite =>
    cases hf
  | _ => rfl

theorem decodeCmd_cmdWord {i : Instr} (hf : (encode i).format = .cmd16) : decodeCmd (cmdWord i) = some i := by
  cases i with
  | reportStatus | runConfiguration | loadBitstream | reset => decide
  | setCtrlEn | setNconfigpull | setCdratio | setAxicfgen => simp [cmdWord, encode, encodeCmd, decodeCmd]
  | _ => cases hf

theorem encode_of_decodeCmd {w : Halfword} {i : Instr} (h : decodeCmd w = some i) :
    encode i = ⟨.cmd16, w, 0, 0⟩ ∧ i.wellFormed = true := by
  obtain rfl : cmdWord i = w := cmdWord_of_decodeCmd h
  rcases decodeCmd_command h with rfl | rfl | rfl | rfl | ⟨val, rfl | rfl | rfl | rfl⟩ <;> exact ⟨rfl, rfl⟩

/-- Exactly one word decodes to a given command. -/
theorem decodeCmd_eq_some_iff {w : Halfword} {i : Instr} (hf : (encode i).format = .cmd16) :
    decodeCmd w = some i ↔ w = cmdWord i :=
  ⟨fun h => (cmdWord_of_decodeCmd h).symm, fun h => h ▸ decodeCmd_cmdWord hf⟩

/-! ### Micro-operations (R106) and their operand words (log 14) -/

theorem fieldOfCode_eq_some_iff {c : BitVec 3} {f : CtrlField} : fieldOfCode c = some f ↔ fieldCode f = c := by
  revert c
  cases f <;> decide

/-- A number the operand word admits is one of 8 bits. -/
theorem exists_byte_of_lt {val : Nat} (h : val < 256) : ∃ v : BitVec 8, v.toNat = val :=
  ⟨BitVec.ofNat 8 val, Nat.mod_eq_of_lt h⟩

theorem encode_writeStatusMode (v : BitVec 8) :
    encode (.writeStatusMode v.toNat) = ⟨.bus16, tagWriteStatus, v.setWidth 16, 0⟩ := by
  rw [encode, BitVec.ofNat_toNat, BitVec.setWidth_eq]

theorem encode_writeControlField (f : CtrlField) (v : BitVec 8) :
    encode (.writeControlField f v.toNat) =
      ⟨.bus16, tagWriteControl, ((fieldCode f).setWidth 16 <<< 8) ||| v.setWidth 16, 0⟩ := by
  rw [encode, BitVec.ofNat_toNat, BitVec.setWidth_eq]

theorem decodeBus_modeOperand (v : BitVec 8) :
    decodeBus tagWriteStatus (v.setWidth 16) 0 = some (.writeStatusMode v.toNat) := by
  have htag : decodeBus tagWriteStatus (v.setWidth 16) 0 = if _ then some (.writeStatusMode _) else none := rfl
  rw [htag, if_pos ⟨extract_above_lowest_lane v (by decide), rfl⟩, extract_lowest_lane v (by decide)]

theorem decodeBus_fieldOperand (f : CtrlField) (v : BitVec 8) :
    decodeBus tagWriteControl (((fieldCode f).setWidth 16 <<< 8) ||| v.setWidth 16) 0 =
      some (.writeControlField f v.toNat) := by
  generalize hlo : (((fieldCode f).setWidth 16 <<< 8) ||| v.setWidth 16 : Halfword) = lo
  have hzero : lo.extractLsb' 11 5 = 0#5 := by
    simp [← hlo, BitVec.extractLsb'_or, extract_other_lane, extract_above_lowest_lane]
  have hcode : lo.extractLsb' 8 3 = fieldCode f := by
    simp [← hlo, BitVec.extractLsb'_or, extract_lane, extract_above_lowest_lane]
  have hval : lo.extractLsb' 0 8 = v := by
    simp [← hlo, BitVec.extractLsb'_or, extract_other_lane, extract_lowest_lane]
  have htag : decodeBus tagWriteControl lo 0 = if _ then _ else none := rfl
  rw [htag, if_pos ⟨hzero, rfl⟩, hval, hcode, fieldOfCode_eq_some_iff.mpr rfl]

/-- A word with zeros from bit `len` on is its lower part. -/
theorem setWidth_extract_of_upper_zero {size len rest : Nat} {w : BitVec size} (hsize : size ≤ len + rest)
    (h : w.extractLsb' len rest = 0) : (w.extractLsb' 0 len).setWidth size = w := by
  ext k hk
  by_cases hlow : k < len
  · simp [hlow, BitVec.getLsbD_eq_getElem hk]
  · have hbit := congrArg (·.getLsbD (k - len)) h
    simpa [hlow, show k - len < rest by omega, show len + (k - len) = k by omega,
      BitVec.getLsbD_eq_getElem hk] using hbit

theorem eq_fieldOperand {lo : Halfword} (h : (lo.extractLsb' 11 5 : BitVec 5) = 0) :
    ((lo.extractLsb' 8 3).setWidth 16 <<< 8) ||| (lo.extractLsb' 0 8).setWidth 16 = lo := by
  have hlower : lo.extractLsb' 8 3 ++ lo.extractLsb' 0 8 = lo.extractLsb' 0 11 :=
    BitVec.extractLsb'_append_extractLsb'_eq_extractLsb' rfl
  rw [← BitVec.setWidth_append_eq_shiftLeft_setWidth_or, hlower]
  exact setWidth_extract_of_upper_zero (by decide) h

/-- The two operand words of `data_port_write`, low half first, are the halves of its word. -/
theorem dataOperand_eq_append (lo hi : Halfword) : (hi.setWidth 32 <<< 16) ||| lo.setWidth 32 = hi ++ lo := by
  have h : (hi ++ lo).setWidth 32 = _ := BitVec.setWidth_append_eq_shiftLeft_setWidth_or
  simpa using h.symm

theorem decodeBus_dataOperand (word : Word) :
    decodeBus tagWriteData (word.extractLsb' 0 16) (word.extractLsb' 16 16) = some (.dataPortWrite word) := by
  have hword : word.extractLsb' 16 16 ++ word.extractLsb' 0 16 = word :=
    BitVec.extractLsb'_append_extractLsb' (w := 16) (len := 16)
  exact congrArg (fun v => some (Instr.dataPortWrite v)) ((dataOperand_eq_append _ _).trans hword)

theorem decode_encode_microOp {i : Instr} (hf : (encode i).format = .bus16) (hw : i.wellFormed = true) :
    decode (encode i) = some i := by
  cases i with
  | readStatus | readControl | readGpioInterruptStatus => decide
  | writeStatusMode val =>
    obtain ⟨v, rfl⟩ := exists_byte_of_lt (of_decide_eq_true hw)
    rw [encode_writeStatusMode]
    exact decodeBus_modeOperand v
  | writeControlField f val =>
    obtain ⟨v, rfl⟩ := exists_byte_of_lt (of_decide_eq_true hw)
    rw [encode_writeControlField]
    exact decodeBus_fieldOperand f v
  | dataPortWrite word => exact decodeBus_dataOperand word
  | _ => cases hf

theorem encode_of_decodeBus {tag lo hi : Halfword} {i : Instr} (h : decodeBus tag lo hi = some i) :
    encode i = ⟨.bus16, tag, lo, hi⟩ ∧ i.wellFormed = true := by
  unfold decodeBus at h
  split_ifs at h with htag hop htag hop htag hop htag hop htag hop htag
  -- the three reads
  case pos | pos | pos =>
    obtain ⟨rfl, rfl⟩ := hop
    cases h
    exact ⟨htag ▸ rfl, rfl⟩
  -- `write_status_mode`
  case pos =>
    obtain ⟨hzero, rfl⟩ := hop
    cases h
    exact ⟨by rw [encode_writeStatusMode, setWidth_extract_of_upper_zero (by decide) hzero, htag],
      decide_eq_true (BitVec.isLt _)⟩
  -- `write_control_field`
  case pos =>
    obtain ⟨hzero, rfl⟩ := hop
    cases hcode : fieldOfCode (lo.extractLsb' 8 3) with
    | none => simp [hcode] at h
    | some f =>
      rw [hcode] at h
      cases h
      exact ⟨by rw [encode_writeControlField, fieldOfCode_eq_some_iff.mp hcode, eq_fieldOperand hzero, htag],
        decide_eq_true (BitVec.isLt _)⟩
  -- `data_port_write`
  case pos =>
    cases h
    have hhi : (hi ++ lo).extractLsb' 16 16 = hi := BitVec.extractLsb'_append_eq_left
    have hlo : (hi ++ lo).extractLsb' 0 16 = lo := BitVec.extractLsb'_append_eq_right
    exact ⟨by rw [dataOperand_eq_append, encode, hhi, hlo, htag], rfl⟩

/-! ### The round trips -/

/-- Settles O1: the command words by `decodeCmd_cmdWord`, the tags and their operand words by
`decode_encode_microOp`. -/
theorem decodeOfEncodeIsTheOperation : Obligations.DecodeOfEncodeIsTheOperation := by
  intro i hw
  cases hf : (encode i).format with
  | cmd16 =>
    rw [encode_of_command hf]
    exact decodeCmd_cmdWord hf
  | bus16 => exact decode_encode_microOp hf hw

/-- Settles O2: a command word is the encoding of what it decodes to (`encode_of_decodeCmd`), and so is a tag with
its operand words (`encode_of_decodeBus`). -/
theorem encodeOfDecodeIsTheWords : Obligations.EncodeOfDecodeIsTheWords := by
  rintro ⟨format, first, lo, hi⟩ i h
  cases format with
  | cmd16 =>
    obtain ⟨⟨rfl, rfl⟩, hd⟩ : (lo = 0 ∧ hi = 0) ∧ decodeCmd first = some i := by simpa [decode] using h
    exact encode_of_decodeCmd hd
  | bus16 => exact encode_of_decodeBus h

/-- Settles O3: a command has one word (`decodeCmd_eq_some_iff`), and a setter's is known by its high byte and its
low byte (`eq_cmd16_iff`). -/
theorem commandMapByMatchAndMask : Obligations.CommandMapByMatchAndMask := by
  intro w
  have hmask : w &&& 0xFFFF = w := BitVec.and_allOnes
  rw [hmask]
  exact ⟨decodeCmd_eq_some_iff rfl, decodeCmd_eq_some_iff rfl, decodeCmd_eq_some_iff rfl,
    decodeCmd_eq_some_iff rfl, fun val =>
    ⟨(decodeCmd_eq_some_iff rfl).trans eq_cmd16_iff, (decodeCmd_eq_some_iff rfl).trans eq_cmd16_iff,
      (decodeCmd_eq_some_iff rfl).trans eq_cmd16_iff, (decodeCmd_eq_some_iff rfl).trans eq_cmd16_iff⟩⟩

/-- Settles O5: the decoder evaluated on the ten words. -/
theorem sampleWordsDecode : Obligations.SampleWordsDecode := by
  unfold Obligations.SampleWordsDecode
  decide

/-! ### Illegal command words (R107, R220) -/

/-- The opcodes that are no setter's. -/
theorem op_not_setter_iff : ∀ op : BitVec 4, op ∉ ([4, 5, 6, 7] : List (BitVec 4)) ↔
    op = 0 ∨ 9 ≤ op.toNat ∨ op ∈ ([1, 2, 3, 8] : List (BitVec 4)) := by decide

/-- The opcodes that are no command's. -/
theorem op_not_command_iff : ∀ op : BitVec 4, op ∉ ([4, 5, 6, 7, 1, 2, 3, 8] : List (BitVec 4)) ↔
    op = 0 ∨ 9 ≤ op.toNat := by decide

/-- The three causes of R107. Where bits 11 to 8 are 0, every opcode of a command stands with operand 0, and only a
setter's with another. -/
theorem decodeCmd_eq_none_iff {w : Halfword} :
    decodeCmd w = none ↔
      w.extractLsb' 12 4 = (0 : BitVec 4) ∨ 9 ≤ (w.extractLsb' 12 4).toNat ∨
      w.extractLsb' 8 4 ≠ (0 : BitVec 4) ∨
      (w.extractLsb' 12 4 ∈ ([1, 2, 3, 8] : List (BitVec 4)) ∧ w.extractLsb' 0 8 ≠ (0 : BitVec 8)) := by
  unfold decodeCmd
  generalize w.extractLsb' 12 4 = op
  generalize w.extractLsb' 8 4 = zero
  generalize w.extractLsb' 0 8 = val
  by_cases hzero : zero = 0#4
  · by_cases hval : val = 0#8
    · simpa [hzero, hval, ite_eq_iff] using op_not_command_iff op
    · simpa [hzero, hval, ite_eq_iff] using op_not_setter_iff op
  · simp [hzero]

/-- Settles O4: the causes are `decodeCmd_eq_none_iff`, what decodes is a command (`encode_of_decodeCmd`), and the
step at an illegal word refuses it whatever the mapping (`blockStep_illegal_word`). -/
theorem illegalCommandWordsAreRefused : Obligations.IllegalCommandWordsAreRefused := by
  refine fun w => ⟨decodeCmd_eq_none_iff, fun i hd => ?_, fun s rest hv henv hpc hport hd => ?_⟩
  · rw [(encode_of_decodeCmd hd).1]
  · refine step_next.mpr ⟨hv, ?_⟩
    rw [applyEnv_of_nil henv, blockStep_illegal_word hpc hport hd]
    simp [rejectIllegal, finish, latchCommand, resultCode, hpc]

end Sys2Proof.Machine
end

section
/-! PROOF. Fields and their assembly: the masks, `extract` and `insert` (R96 to R99), the loader word (R100), the
packed snapshot (R105) and the names of the modes (R93, R112). -/

namespace Sys2Proof.Machine

variable {size k : Nat}

/-! ### The bits of a field -/

theorem getElem_ofNat_eq_testBit (val : Nat) (hk : k < size) : (BitVec.ofNat size val)[k] = val.testBit k := by
  simp [BitVec.getElem_eq_testBit_toNat, hk]

/-- The mask of a field is 1 at the field's places (R96). -/
theorem getElem_fieldMask (d : FieldDesc) (hk : k < size) :
    (fieldMask d size)[k] = decide (d.shift ≤ k ∧ k < d.shift + d.width) := by
  rw [fieldMask, getElem_ofNat_eq_testBit, Nat.one_shiftLeft, Nat.testBit_shiftLeft, Nat.testBit_two_pow_sub_one,
    ← Bool.decide_and, decide_eq_decide]
  omega

/-- A bit of `insert`: at the field's places a bit of `val`, elsewhere the old bit (R98). -/
theorem getElem_insertField (d : FieldDesc) (old : BitVec size) (val : Nat) (hk : k < size) :
    (insertField d old val)[k] =
      if d.shift ≤ k ∧ k < d.shift + d.width then val.testBit (k - d.shift) else old[k] := by
  by_cases hin : d.shift ≤ k ∧ k < d.shift + d.width
  · simp [insertField, getElem_fieldMask, getElem_ofNat_eq_testBit, hin, hin.1.not_gt]
  · simp [insertField, getElem_fieldMask, hin]

/-- `extract` is the range of the field's places (R97). -/
theorem extractField_eq_extract (d : FieldDesc) (v : BitVec size) :
    extractField d v = v.extractLsb' d.shift d.width := by
  ext k hk
  by_cases hsize : d.shift + k < size
  · simp [extractField, BitVec.getLsbD_eq_getElem hsize, getElem_fieldMask, hk]
  · simp [extractField, BitVec.getLsbD_of_ge v (d.shift + k) (by omega)]

/-- A field inside the register reads back what was inserted. -/
theorem extractField_insertField_same {d : FieldDesc} (hd : d.shift + d.width ≤ size) (old : BitVec size)
    (val : Nat) : extractField d (insertField d old val) = BitVec.ofNat _ val := by
  rw [extractField_eq_extract]
  ext k hk
  rw [BitVec.getElem_extractLsb', BitVec.getLsbD_eq_getElem (by omega), getElem_insertField, if_pos (by omega),
    Nat.add_sub_cancel_left, getElem_ofNat_eq_testBit]

/-- A field that shares no place with the inserted one reads as before. -/
theorem extractField_insertField_disjoint {d e : FieldDesc}
    (h : d.shift + d.width ≤ e.shift ∨ e.shift + e.width ≤ d.shift) (old : BitVec size) (val : Nat) :
    extractField e (insertField d old val) = extractField e old := by
  rw [extractField_eq_extract, extractField_eq_extract]
  ext k hk
  rw [BitVec.getElem_extractLsb', BitVec.getElem_extractLsb']
  by_cases hsize : e.shift + k < size
  · rw [BitVec.getLsbD_eq_getElem hsize, getElem_insertField, if_neg (by omega), BitVec.getLsbD_eq_getElem]
  · rw [BitVec.getLsbD_of_ge _ _ (by omega), BitVec.getLsbD_of_ge _ _ (by omega)]

/-! ### The fields of CTRL (R92, R96) -/

theorem ctrlDesc_inside (f : CtrlField) : (ctrlDesc f).shift + (ctrlDesc f).width ≤ 16 := by
  cases f <;> decide

theorem ctrlDesc_disjoint {f g : CtrlField} (h : g ≠ f) :
    (ctrlDesc f).shift + (ctrlDesc f).width ≤ (ctrlDesc g).shift ∨
    (ctrlDesc g).shift + (ctrlDesc g).width ≤ (ctrlDesc f).shift := by
  revert h
  cases f <;> cases g <;> decide

/-- Settles O6: the fields of CTRL lie inside the register (`ctrlDesc_inside`) and share no place
(`ctrlDesc_disjoint`). -/
theorem insertedFieldReadsBack : Obligations.InsertedFieldReadsBack := by
  intro f old val _
  have hmask : fieldMask (ctrlDesc f) 16 &&& ~~~ fieldMask (ctrlDesc f) 16 = 0 := BitVec.and_not_self _
  exact ⟨extractField_insertField_same (ctrlDesc_inside f) old val, insertField_and_of_disjoint hmask old val,
    fun g hg => extractField_insertField_disjoint (ctrlDesc_disjoint hg) old val⟩

/-- `fits` (R99). -/
theorem fitsField_iff (d : FieldDesc) (val : Nat) : fitsField d val = true ↔ val ≤ 2 ^ d.width - 1 :=
  decide_eq_true_iff

/-- Settles O7: descriptors and masks by evaluation, the greatest values by `fitsField_iff`. -/
theorem fieldTable : Obligations.FieldTable := by
  refine ⟨?_, ⟨rfl, by decide, fitsField_iff _⟩, ⟨rfl, by decide, fitsField_iff _⟩,
    ⟨rfl, by decide, fitsField_iff _⟩, fitsField_iff⟩
  simp only [List.forall_mem_cons]
  exact ⟨⟨rfl, by decide, fitsField_iff _⟩, ⟨rfl, by decide, fitsField_iff _⟩, ⟨rfl, by decide, fitsField_iff _⟩,
    ⟨rfl, by decide, fitsField_iff _⟩, ⟨rfl, by decide, fitsField_iff _⟩, by simp⟩

/-! ### The loader word (R100) -/

theorem pack4_eq_append (c0 c1 c2 c3 : Byte) : pack4 ⟨c0, c1, c2, c3⟩ = c3 ++ c2 ++ c1 ++ c0 := by
  have h : (c3 ++ c2 ++ c1 ++ c0).setWidth 32 = _ :=
    BitVec.setWidth_append_append_append_eq_shiftLeft_setWidth_or
  have hrev (a b c d : Word) : a ||| b ||| c ||| d = d ||| c ||| b ||| a := by ac_rfl
  rw [BitVec.setWidth_eq] at h
  exact (hrev _ _ _ _).trans h.symm

/-- A concatenation as a number: the lanes do not overlap, so no carry occurs. -/
theorem toNat_append_eq_add {m n : Nat} (x : BitVec m) (y : BitVec n) :
    (x ++ y).toNat = y.toNat + x.toNat * 2 ^ n := by
  rw [BitVec.toNat_append, ← Nat.shiftLeft_add_eq_or_of_lt y.isLt, Nat.shiftLeft_eq, Nat.add_comm]

/-- Settles O8: the word is the concatenation (`pack4_eq_append`), whose number is the sum
(`toNat_append_eq_add`). -/
theorem pack4IsTheConcatenation : Obligations.Pack4IsTheConcatenation := by
  refine ⟨fun c0 c1 c2 c3 => ⟨rfl, pack4_eq_append c0 c1 c2 c3, ?_⟩, by decide, by decide⟩
  rw [pack4_eq_append, toNat_append_eq_add, toNat_append_eq_add, toNat_append_eq_add]
  ring

/-! ### The modes (R93, R112) -/

theorem encodeMode_eq_some_iff {name : Mode} {m : BitVec 3} :
    encodeMode name = some m ↔ decodeMode m = name ∧ name ≠ .undetermined := by
  revert m
  cases name <;> decide

/-- Settles O9: the eight codes by evaluation, the names by `encodeMode_eq_some_iff`. -/
theorem modeCodesAndNames : Obligations.ModeCodesAndNames :=
  ⟨rfl, rfl, rfl, rfl, rfl, rfl, rfl, rfl, rfl, fun _ _ => encodeMode_eq_some_iff⟩

/-! ### The packed snapshot (R105) -/

/-- Each field of a snapshot has its lane, and no lane reaches bit 15. -/
theorem packSnap_lanes (s : Snap) : let p := packSnap s
    p.extractLsb' 0 5 = s.msel ∧ p.extractLsb' 5 3 = s.mode ∧ p.extractLsb' 8 1 = s.cfgwdth ∧
    p.extractLsb' 9 2 = s.cdratio ∧ p.extractLsb' 11 1 = s.axicfgen ∧ p.extractLsb' 12 1 = s.nconfigpull ∧
    p.extractLsb' 13 1 = s.configurationDone ∧ p.extractLsb' 14 1 = s.ctrlEn ∧
    p.extractLsb' 15 1 = (0 : BitVec 1) := by
  simp [packSnap, BitVec.extractLsb'_or, extract_lane, extract_other_lane, extract_lowest_lane,
    extract_above_lowest_lane]

/-- The fields a report takes from the registers (R211), each at its bits (R91, R92, R94). -/
theorem assembleSnap_eq (st : Byte) (ctl gp : Halfword) :
    assembleSnap st ctl gp = ⟨st.extractLsb' 3 5, st.extractLsb' 0 3, ctl.extractLsb' 9 1, ctl.extractLsb' 6 2,
      ctl.extractLsb' 8 1, ctl.extractLsb' 2 1, gp.extractLsb' 1 1, ctl.extractLsb' 0 1⟩ := by
  simp only [assembleSnap, extractField_eq_extract]
  rfl

/-- Settles O10: the lanes of the packed word (`packSnap_lanes`) hold the fields of the report
(`assembleSnap_eq`). -/
theorem packedSnapshotLayout : Obligations.PackedSnapshotLayout := by
  intro st ctl gp
  rw [assembleSnap_eq]
  exact packSnap_lanes _

end Sys2Proof.Machine
end

section
/-! PROOF. The micro-operations (R120 to R127): the next state each gives, where the sequences perform them, and
that every bus transaction of a step is one of them (R106, R165). -/

namespace Sys2Proof.Machine

variable {s t u : State} {m : Instr}

/-! ### The next state each gives -/

theorem exec_readStatus (s : State) : exec .readStatus s = .next (readStat s) := rfl

theorem exec_readControl (s : State) : exec .readControl s = .next (readCtrl s) := rfl

theorem exec_readGpioInterruptStatus (s : State) : exec .readGpioInterruptStatus s = .next (readGpio s) := rfl

theorem exec_dataPortWrite (word : Word) (s : State) : exec (.dataPortWrite word) s = .next (writeData word s) :=
  rfl

/-- `write_control_field` rejects its value, or makes one of its two accesses (R122). -/
theorem exec_writeControlField_next {f : CtrlField} {val : Nat} :
    exec (.writeControlField f val) s = .next t ↔
      (fitsField (ctrlDesc f) val = false ∧ t = finish .invalidFieldValue s) ∨
      (fitsField (ctrlDesc f) val = true ∧ s.pc.minor = .m0 ∧ t = readCtrl s) ∨
      (fitsField (ctrlDesc f) val = true ∧ s.pc.minor = .m1 ∧
        t = writeCtrl (insertField (ctrlDesc f) s.ctl val) s) :=
  controlFieldStep_next

/-- `write_status_mode` rejects its value, or makes one of its two accesses (R123). -/
theorem exec_writeStatusMode_next {val : Nat} :
    exec (.writeStatusMode val) s = .next t ↔
      (fitsField modeDesc val = false ∧ t = finish .invalidFieldValue s) ∨
      (fitsField modeDesc val = true ∧ s.pc.minor = .m0 ∧ t = readStat s) ∨
      (fitsField modeDesc val = true ∧ s.pc.minor = .m1 ∧
        t = writeStat (insertField modeDesc s.st val) s) :=
  statusModeStep_next

/-- Settles O15: the write half puts the field into the value the read half read, and the read after it finds
what was written. -/
theorem writeFieldThenReadControl : Obligations.WriteFieldThenReadControl := by
  intro f val s s1 s2 s3 hfits hminor hread hwrite hreadback
  obtain rfl : s1 = readCtrl s := by simpa [exec_writeControlField_next, hfits, hminor] using hread
  have hs2 : s2.ctrlReg = insertField (ctrlDesc f) s.ctrlReg val := by
    simp only [exec_writeControlField_next, hfits, reduceCtorEq, false_and, false_or, true_and] at hwrite
    simp [hwrite]
  obtain rfl : readCtrl s2 = s3 := by simpa [exec_readControl] using hreadback
  rw [readCtrl_ctl, hs2]
  exact insertedFieldReadsBack f s.ctrlReg val hfits

/-! ### Where the sequences perform them -/

/-- What the three phases of a report read (R211). -/
def reportRead : Minor → Instr
  | .m0 => .readStatus
  | .m1 => .readControl
  | .m2 => .readGpioInterruptStatus

theorem microOpAt_of_report (hm : s.pc.major = .run1 ∨ s.pc.major = .run12 ∨ s.pc.major = .cmdReport) :
    microOpAt s = some (reportRead s.pc.minor) := by
  rcases hm with hm | hm | hm <;> cases hk : s.pc.minor <;> simp [microOpAt, reportRead, hm, hk]

theorem microOpAt_of_awaited {mode : BitVec 3} (hm : awaited s.pc.major = some mode) (hk : s.pc.minor = .m0) :
    microOpAt s = some .readStatus := by
  cases hmaj : s.pc.major <;> simp_all [awaited, microOpAt]

theorem microOpAt_of_load_fetch (hm : s.pc.major = .run9 ∨ s.pc.major = .cmdLoad) (hk : s.pc.minor = .m0) :
    microOpAt s = none := by
  rcases hm with hm | hm <;> simp [microOpAt, hm, hk]

theorem microOpAt_of_load_write (hm : s.pc.major = .run9 ∨ s.pc.major = .cmdLoad) (hk : s.pc.minor = .m1) :
    microOpAt s = some (.dataPortWrite s.w) := by
  rcases hm with hm | hm <;> simp [microOpAt, hm, hk]

theorem microOpAt_of_reset (hm : s.pc.major = .cmdReset) (hk : s.pc.minor = .m0 ∨ s.pc.minor = .m1) :
    microOpAt s = some (.writeStatusMode 1) := by
  rcases hk with hk | hk <;> simp [microOpAt, hm, hk]

/-- Whatever a sequence performs is a read, the write of the loader's word, the write of mode 1, or the write of
the field that stands at this major step. -/
theorem microOpAt_cases (h : microOpAt s = some m) :
    m ∈ [.readStatus, .readControl, .readGpioInterruptStatus, .dataPortWrite s.w, .writeStatusMode 1] ∨
    ∃ f val, fieldAt s = some (f, val) ∧ m = .writeControlField f val := by
  by_cases hset : s.pc.major = .cmdSetf
  · right
    cases hk : s.pc.minor <;> simp only [microOpAt, hset, hk, reduceCtorEq] at h
    all_goals
      split at h <;> rename_i hd <;> cases h
      all_goals exact ⟨_, _, by simp only [fieldAt, hset, hd], rfl⟩
  · unfold microOpAt at h
    split at h <;> simp_all [fieldAt]

/-! ### What a sequence may do beyond the access -/

/-- From `u` to `t` a sequence goes on after an access: it moves the step register, the outputs and the poll
count, and emits RES at most. -/
structure GoesOn (u t : State) : Prop where
  frame : t = { u with
    pc := t.pc, busy := t.busy, result := t.result, snap := t.snap, polls := t.polls, trace := t.trace }
  trace : t.trace = u.trace ∨ t.trace = u.trace ++ [.res t.result]

theorem GoesOn.refl (u : State) : GoesOn u u := ⟨rfl, .inl rfl⟩

theorem goesOn_goto (major : Major) (minor : Minor) (u : State) : GoesOn u (goto major minor u) :=
  ⟨rfl, .inl rfl⟩

theorem goesOn_finish (r : ResultKind) (u : State) : GoesOn u (finish r u) := ⟨rfl, .inr rfl⟩

theorem goesOn_afterMajor (major : Major) (u : State) : GoesOn u (afterMajor major u) := by
  obtain ⟨hframe, htrace⟩ := afterMajor_frame major u
  exact ⟨by rw [hframe], htrace⟩

/-- Taking the snapshot is part of going on. -/
theorem GoesOn.of_takeSnap (h : GoesOn (takeSnap u) t) : GoesOn u t := ⟨h.frame, h.trace⟩

/-- Counting a poll is part of going on. -/
theorem GoesOn.of_countPoll (h : GoesOn (countPoll u) t) : GoesOn u t := ⟨h.frame, h.trace⟩

/-! ### Each shared step makes a micro-operation and goes on -/

theorem reportStep_performs {k : State → State} (hk : ∀ u, GoesOn u (k u)) (h : reportStep k s = .next t) :
    ∃ u, exec (reportRead s.pc.minor) s = .next u ∧ GoesOn u t := by
  obtain ⟨hm, rfl⟩ | ⟨hm, rfl⟩ | ⟨hm, rfl⟩ := reportStep_next.mp h <;> rw [hm]
  · exact ⟨_, rfl, goesOn_goto ..⟩
  · exact ⟨_, rfl, goesOn_goto ..⟩
  · exact ⟨_, rfl, (hk _).of_takeSnap⟩

theorem controlFieldStep_performs {f : CtrlField} {val : Nat} {g k : State → State} (hg : ∀ u, GoesOn u (g u))
    (hk : ∀ u, GoesOn u (k u)) (h : controlFieldStep f val g k s = .next t) :
    ∃ u, exec (.writeControlField f val) s = .next u ∧ GoesOn u t := by
  simp only [exec_writeControlField_next]
  obtain ⟨hfits, rfl⟩ | ⟨hfits, hm, rfl⟩ | ⟨hfits, hm, rfl⟩ := controlFieldStep_next.mp h
  · exact ⟨_, .inl ⟨hfits, rfl⟩, .refl _⟩
  · exact ⟨_, .inr (.inl ⟨hfits, hm, rfl⟩), hg _⟩
  · exact ⟨_, .inr (.inr ⟨hfits, hm, rfl⟩), hk _⟩

theorem statusModeStep_performs {val : Nat} {g k : State → State} (hg : ∀ u, GoesOn u (g u))
    (hk : ∀ u, GoesOn u (k u)) (h : statusModeStep val g k s = .next t) :
    ∃ u, exec (.writeStatusMode val) s = .next u ∧ GoesOn u t := by
  simp only [exec_writeStatusMode_next]
  obtain ⟨hfits, rfl⟩ | ⟨hfits, hm, rfl⟩ | ⟨hfits, hm, rfl⟩ := statusModeStep_next.mp h
  · exact ⟨_, .inl ⟨hfits, rfl⟩, .refl _⟩
  · exact ⟨_, .inr (.inl ⟨hfits, hm, rfl⟩), hg _⟩
  · exact ⟨_, .inr (.inr ⟨hfits, hm, rfl⟩), hk _⟩

theorem waitStep_performs {mode : BitVec 3} {k : State → State} (hk : ∀ u, GoesOn u (k u))
    (h : waitStep mode k s = .next t) : s.pc.minor = .m0 ∧ ∃ u, exec .readStatus s = .next u ∧ GoesOn u t := by
  cases hl : s.cfg.pollLimit with
  | none =>
    obtain ⟨hm, ⟨-, rfl⟩ | ⟨-, rfl⟩⟩ := (waitStep_next_baseline hl).mp h
    · exact ⟨hm, _, rfl, hk _⟩
    · exact ⟨hm, _, rfl, .refl _⟩
  | some limit =>
    obtain ⟨hm, ⟨-, rfl⟩ | ⟨-, -, rfl⟩ | ⟨-, -, rfl⟩⟩ := (waitStep_next_hardened hl).mp h
    · exact ⟨hm, _, rfl, (hk _).of_countPoll⟩
    · exact ⟨hm, _, rfl, (goesOn_finish ..).of_countPoll⟩
    · exact ⟨hm, _, rfl, (GoesOn.refl _).of_countPoll⟩

theorem writeStep_performs {k : State → State} (hk : ∀ u, GoesOn u (k u)) (s : State) :
    ∃ u, exec (.dataPortWrite s.w) s = .next u ∧ GoesOn u (writeStep k s) := by
  refine ⟨_, rfl, ?_⟩
  obtain ⟨-, h⟩ | ⟨-, h⟩ := writeStep_cases k s <;> rw [h]
  · exact goesOn_goto ..
  · exact hk _

/-- Every read of the image port is one event, whatever it answers (R78). -/
theorem imgRead_trace (s : State) : ∃ e, isImageRead e = true ∧ (imgRead s).2.trace = s.trace ++ [e] := by
  obtain ⟨plan, -, hread⟩ | ⟨c, plan, _, -, -, -, -, hread⟩ := imgRead_cases s <;> rw [hread]
  · exact ⟨.imgErr, rfl, rfl⟩
  · exact ⟨.img c, rfl, rfl⟩

/-- The loader's fetch reads the image port and goes on: no bus transaction. -/
theorem fetchStep_trace {k : State → State} (hk : ∀ u, GoesOn u (k u)) (s : State) :
    let t := fetchStep k s
    ∃ e, isImageRead e = true ∧ (t.trace = s.trace ++ [e] ∨ t.trace = s.trace ++ [e, .res t.result]) := by
  obtain ⟨e, he, hread⟩ := imgRead_trace s
  have hgo {u t : State} (hu : u.trace = s.trace ++ [e]) (h : GoesOn u t) :
      t.trace = s.trace ++ [e] ∨ t.trace = s.trace ++ [e, .res t.result] := by
    simpa [hu] using h.trace
  refine ⟨e, he, ?_⟩
  obtain ⟨u, hu, h⟩ | ⟨c, u, hu, h⟩ := fetchStep_cases k s <;> rw [hu] at hread
  · rw [h]
    exact hgo hread (goesOn_finish ..)
  · obtain ⟨-, h⟩ | ⟨-, h⟩ | ⟨-, -, -, h⟩ | ⟨-, -, -, h⟩ := h <;> rw [h]
    · exact hgo (u := storeBlock c u) hread (goesOn_goto ..)
    · exact hgo (u := storeBlock c u) hread (hk _)
    · exact hgo (u := storeBlock c u) hread (goesOn_goto ..)
    · exact hgo (u := storeBlock c u) hread (goesOn_finish ..)

/-! ### The step of the block -/

/-- Outside IDLE a step makes the micro-operation that stands at its `pc` and goes on, or, at the loader's fetch,
reads the image port and goes on. -/
theorem blockStep_busy_performs (hpc : pcLegal s.pc = true) (hbusy : s.pc.major ≠ .idle)
    (h : blockStep s = .next t) :
    (∃ m u, microOpAt s = some m ∧ exec m s = .next u ∧ GoesOn u t) ∨
    (microOpAt s = none ∧
      ∃ e, isImageRead e = true ∧ (t.trace = s.trace ++ [e] ∨ t.trace = s.trace ++ [e, .res t.result])) := by
  have hdone := goesOn_afterMajor s.pc.major
  have hphase (hnot : s.pc.major ∉ [.run1, .run12, .cmdReport]) : s.pc.minor = .m0 ∨ s.pc.minor = .m1 := by
    have hm2 := minor_ne_m2 hpc hnot
    cases hk : s.pc.minor <;> simp_all
  rcases blockStep_cases h with ⟨hidle, -⟩ | ⟨w, rest, hidle, -⟩ | ⟨w, rest, i, hidle, -⟩ | ⟨hm, h⟩ |
    ⟨f, val, hf, h⟩ | ⟨hm, h⟩ | ⟨mode, hm, h⟩ | ⟨hm, h⟩
  · simp [hidle] at hbusy
  · simp [hidle] at hbusy
  · simp [hidle] at hbusy
  · obtain ⟨u, hu, hgo⟩ := reportStep_performs hdone h
    exact .inl ⟨_, u, microOpAt_of_report hm, hu, hgo⟩
  · have hnot : ∀ m ∈ ctrlWriters, m ∉ [.run1, .run12, .cmdReport] := by decide
    obtain ⟨u, hu, hgo⟩ := controlFieldStep_performs (goesOn_goto _ _) hdone h
    exact .inl ⟨_, u, microOpAt_of_fieldAt hf (hphase (hnot _ (fieldAt_major hf))), hu, hgo⟩
  · obtain ⟨u, hu, hgo⟩ := statusModeStep_performs (goesOn_goto _ _) (goesOn_finish _) h
    exact .inl ⟨_, u, microOpAt_of_reset hm (hphase (by simp [hm])), hu, hgo⟩
  · obtain ⟨hk, u, hu, hgo⟩ := waitStep_performs hdone h
    exact .inl ⟨_, u, microOpAt_of_awaited hm hk, hu, hgo⟩
  · obtain ⟨hk, rfl⟩ | ⟨hk, rfl⟩ := loadStep_next.mp h
    · exact .inr ⟨microOpAt_of_load_fetch hm hk, fetchStep_trace hdone s⟩
    · obtain ⟨u, hu, hgo⟩ := writeStep_performs hdone s
      exact .inl ⟨_, u, microOpAt_of_load_write hm hk, hu, hgo⟩

/-- Settles O39: in IDLE no sequence performs anything and a step at most takes a word off the port
(`oneEventPerStep`); outside IDLE the step is that of `blockStep_busy_performs`. -/
theorem stepPerformsTheMicroOperation : Obligations.StepPerformsTheMicroOperation := by
  refine ⟨fun s m hs hm => ?_, fun s t hs hnone h => ?_⟩
  · have hbusy : s.pc.major ≠ .idle := fun hidle => by simp [microOpAt, hidle] at hm
    obtain ⟨t, ht⟩ := blockStep_progress hs
    obtain ⟨m', u, hm', hu, hframe, htrace⟩ | ⟨hnone, -⟩ := blockStep_busy_performs hs.pc_legal hbusy ht
    · obtain rfl := Option.some.inj (hm'.symm.trans hm)
      exact ⟨u, t, hu, ht, hframe, htrace⟩
    · simp [hm] at hnone
  · by_cases hidle : s.pc.major = .idle
    · obtain ⟨es, hes, -, hword⟩ := oneEventPerStep s t hs h
      refine ⟨es, hes, fun _ => ?_, fun hbusy => absurd hidle hbusy⟩
      obtain ⟨-, rfl⟩ | ⟨w, -, rfl | rfl⟩ := hword hidle <;> simp [isAccess]
    · obtain ⟨m, u, hm, -⟩ | ⟨-, e, he, htrace⟩ := blockStep_busy_performs hs.pc_legal hidle h
      · simp [hnone] at hm
      · obtain htrace | htrace := htrace
        · exact ⟨_, htrace, fun h => absurd h hidle, fun _ => ⟨e, he, .inl rfl⟩⟩
        · exact ⟨_, htrace, fun h => absurd h hidle, fun _ => ⟨e, he, .inr rfl⟩⟩

end Sys2Proof.Machine
end

section
/-! PROOF. The micro-operations in every state: whole next states, tags and the bits of their fields (R121 to
R126, R106, R98). -/

namespace Sys2Proof.Machine

variable {d : FieldDesc} {size val : Nat}

/-- Settles O11: the next states are those of the three reads, the tags are evaluated, and a field is the range
of its places (`extractField_eq_extract`). -/
theorem readMicroOperations : Obligations.ReadMicroOperations :=
  ⟨by decide, by decide, by decide, fun s => ⟨exec_readStatus s, exec_readControl s,
    exec_readGpioInterruptStatus s, extractField_eq_extract modeDesc _, extractField_eq_extract mselDesc _,
    extractField_eq_extract (ctrlDesc .ctrlEn) _, extractField_eq_extract (ctrlDesc .nconfigpull) _,
    extractField_eq_extract (ctrlDesc .cdratio) _, extractField_eq_extract (ctrlDesc .axicfgen) _,
    extractField_eq_extract (ctrlDesc .cfgwdth) _, extractField_eq_extract configurationDoneDesc _⟩⟩

/-- Settles O12: the tag does not depend on the word, and the next state is that of the write. -/
theorem dataPortWriteFeedsTheFifo : Obligations.DataPortWriteFeedsTheFifo :=
  fun s word => ⟨(by decide : tagWriteData = 0xE000), exec_dataPortWrite word s⟩

/-! ### Values in range and out of range -/

theorem fitsField_eq_false (h : 2 ^ d.width - 1 < val) : fitsField d val = false := by
  rw [← Bool.not_eq_true, fitsField_iff]
  omega

theorem lt_of_fitsField (h : fitsField d val = true) : val < 2 ^ d.width := by
  have hle := (fitsField_iff d val).mp h
  have hpos := Nat.two_pow_pos d.width
  omega

/-- A value that fits lies under the mask once shifted to its place. -/
theorem shifted_and_fieldMask (h : fitsField d val = true) :
    BitVec.ofNat size val <<< d.shift &&& fieldMask d size = BitVec.ofNat size val <<< d.shift := by
  ext k hk
  rw [BitVec.getElem_and, getElem_fieldMask, BitVec.getElem_shiftLeft]
  by_cases hbelow : k < d.shift
  · simp [hbelow]
  · by_cases hin : k < d.shift + d.width
    · simp [hin, Nat.le_of_not_lt hbelow]
    · have habove : val.testBit (k - d.shift) = false := Nat.testBit_lt_two_pow
        ((lt_of_fitsField h).trans_le (Nat.pow_le_pow_right (by omega) (by omega)))
      simp [getElem_ofNat_eq_testBit, habove]

/-- For a value that fits, `insert` needs no mask on it (R98). -/
theorem insertField_of_fits (h : fitsField d val = true) (old : BitVec size) :
    insertField d old val = (old &&& ~~~ fieldMask d size) ||| (BitVec.ofNat size val <<< d.shift) := by
  rw [insertField, shifted_and_fieldMask h]

/-! ### The halves of the two read-modify-writes -/

/-- Settles O13: no sequence performs `write_control_field` but on the field at its major step, which is never
`cfgwdth` (`fieldAt_ne_cfgwdth`); the three cases are those of `exec_writeControlField_next`. -/
theorem writeControlFieldHalves : Obligations.WriteControlFieldHalves := by
  refine ⟨fun s val h => ?_, fun p hp => ?_⟩
  · obtain h | ⟨f, val', hf, h⟩ := microOpAt_cases h
    · simp at h
    · cases h
      exact fieldAt_ne_cfgwdth hf rfl
  · have hrow : fieldMask (ctrlDesc p.1) 16 = p.2.1 ∧ (ctrlDesc p.1).shift = p.2.2.1 ∧
        2 ^ (ctrlDesc p.1).width - 1 = p.2.2.2 := by
      revert p
      decide
    obtain ⟨hmask, hshift, hgreatest⟩ := hrow
    rw [← hmask, ← hshift, ← hgreatest]
    intro val s
    refine ⟨by decide, (by decide : tagWriteControl = 0x9004), fun hval => ?_, fun hval hminor => ?_,
      fun hval hminor => ⟨_, rfl, ?_⟩⟩
    · exact exec_writeControlField_next.mpr (.inl ⟨fitsField_eq_false hval, rfl⟩)
    · exact exec_writeControlField_next.mpr (.inr (.inl ⟨(fitsField_iff _ _).mpr hval, hminor, rfl⟩))
    · have hfits := (fitsField_iff (ctrlDesc p.1) val).mpr hval
      rw [← insertField_of_fits hfits]
      exact exec_writeControlField_next.mpr (.inr (.inr ⟨hfits, hminor, rfl⟩))

/-- Settles O14: mode 1 is the only one a sequence performs (`microOpAt_cases`); the three cases are those of
`exec_writeStatusMode_next`. -/
theorem writeStatusModeHalves : Obligations.WriteStatusModeHalves := by
  refine ⟨fun s val h => ?_, fun val s => ⟨by decide, (by decide : tagWriteStatus = 0x8000), fun hval => ?_,
    fun hval hminor => ?_, fun hval hminor => ⟨_, rfl, ?_⟩⟩⟩
  · obtain h | ⟨f, val', -, h⟩ := microOpAt_cases h
    · simpa using h
    · cases h
  · exact exec_writeStatusMode_next.mpr (.inl ⟨fitsField_eq_false hval, rfl⟩)
  · exact exec_writeStatusMode_next.mpr (.inr (.inl ⟨(fitsField_iff _ _).mpr hval, hminor, rfl⟩))
  · have hfits := (fitsField_iff modeDesc val).mpr hval
    have hmask : ~~~ fieldMask modeDesc 8 = 0xF8 := by decide
    have hinsert : insertField modeDesc s.st val = (s.st &&& 0xF8) ||| BitVec.ofNat 8 val := by
      rw [insertField_of_fits hfits, hmask]
      exact congrArg _ (BitVec.shiftLeft_zero _)
    rw [← hinsert]
    exact exec_writeStatusMode_next.mpr (.inr (.inr ⟨hfits, hminor, rfl⟩))

end Sys2Proof.Machine
end

section
/-! PROOF. One step of a run (R152, R165): it stays at its major step, goes past it, or ends the command. The
fields a run has written (R166) grow by one at each write half and at nothing else. -/

namespace Sys2Proof.Machine

variable {s t u : State} {e : Event} {tr : List Event} {c : Config} {m : Major}

/-! ### The writes since the last command -/

theorem sinceCommand_append (he : isCmd e = false) : sinceCommand (tr ++ [e]) = sinceCommand tr ++ [e] := by
  simp [sinceCommand, he]

theorem commandWrites_append_write (hc : isCmd e = false) (he : isWrite e = true) :
    commandWrites (tr ++ [e]) = commandWrites tr ++ [e] := by
  simp [commandWrites, sinceCommand_append hc, he]

theorem commandWrites_append_other (hc : isCmd e = false) (he : isWrite e = false) :
    commandWrites (tr ++ [e]) = commandWrites tr := by
  simp [commandWrites, sinceCommand_append hc, he]

/-- With the acceptance of a command the account of writes begins anew. -/
theorem commandWrites_append_cmd (w : Halfword) : commandWrites (tr ++ [.cmd w]) = [] := by
  simp [commandWrites, sinceCommand, isCmd]

@[simp] theorem commandWrites_append_res (code : BitVec 4) :
    commandWrites (tr ++ [.res code]) = commandWrites tr :=
  commandWrites_append_other rfl rfl

theorem commandWrites_afterMajor (m : Major) (u : State) :
    commandWrites (afterMajor m u).trace = commandWrites u.trace := by
  obtain ⟨-, h | h⟩ := afterMajor_frame m u <;> simp [h]

/-! ### The order of the major steps -/

/-- The major step after `m` (R165); IDLE where `m` is the last of its command. -/
def nextMajor (m : Major) : Major := (afterMajor m State.reset).pc.major

theorem afterMajor_pc (m : Major) (u : State) : (afterMajor m u).pc = ⟨nextMajor m, .m0⟩ := by
  cases m <;> rfl

/-- Inside a run, past a major step other than the last the command is still in progress. -/
theorem afterMajor_busy (hrun : isRun m = true) (hm : m ≠ .run12) (u : State) :
    (afterMajor m u).busy = u.busy := by
  cases m <;> simp_all [isRun, afterMajor]

/-- A write half in a run adds its field to the writes of R166, before the load or after it. -/
theorem done_next_of_field {p : CtrlField × Nat} (hrun : isRun s.pc.major = true) (hf : fieldAt s = some p) :
    let n := nextMajor s.pc.major
    (doneBeforeLoad s.pc.major < 5 ∧ doneAfterLoad s.pc.major = 0 ∧ doneAfterLoad n = 0 ∧
      (writesBeforeLoad s.cfg).take (doneBeforeLoad n) =
        (writesBeforeLoad s.cfg).take (doneBeforeLoad s.pc.major) ++ [p]) ∨
    (doneBeforeLoad s.pc.major = 5 ∧ doneBeforeLoad n = 5 ∧
      writesAfterLoad.take (doneAfterLoad n) = writesAfterLoad.take (doneAfterLoad s.pc.major) ++ [p]) := by
  cases hm : s.pc.major <;> rw [hm] at hrun <;> simp only [fieldAt, hm, reduceCtorEq] at hf
  case cmdSetf => cases hrun
  all_goals
    cases hf
    simp [nextMajor, afterMajor, doneBeforeLoad, doneAfterLoad, writesBeforeLoad, writesAfterLoad]

/-- A major step of a run without a write half adds nothing to them. -/
theorem done_next_of_no_field (hrun : isRun s.pc.major = true) (hlast : s.pc.major ≠ .run12)
    (hf : fieldAt s = none) :
    doneBeforeLoad (nextMajor s.pc.major) = doneBeforeLoad s.pc.major ∧
    doneAfterLoad (nextMajor s.pc.major) = doneAfterLoad s.pc.major := by
  cases hm : s.pc.major <;> simp only [fieldAt, hm, reduceCtorEq] at hf hlast hrun ⊢
  case run12 => exact absurd rfl hlast
  case idle | cmdReport | cmdSetf | cmdReset | cmdLoad => cases hrun
  all_goals exact ⟨rfl, rfl⟩

/-! ### Steps that write nothing -/

/-- From `s` a step has made one access, no write, and stands in `u`. -/
def Reads (s u : State) : Prop := ∃ e, isWrite e = false ∧ Accesses s e u

theorem Accesses.reads (h : Accesses s e u) (he : isWrite e = false) : Reads s u := ⟨e, he, h⟩

theorem Reads.cfg (h : Reads s u) : u.cfg = s.cfg := by
  obtain ⟨e, -, h⟩ := h
  obtain ⟨-, -, hcfg⟩ := h.pc_cmd_cfg
  exact hcfg

theorem Reads.busy (h : Reads s u) : u.busy = s.busy := by
  obtain ⟨e, -, h⟩ := h
  cases h <;> rfl

theorem Reads.ctrlReg (h : Reads s u) : u.ctrlReg = s.ctrlReg := by
  obtain ⟨e, he, h⟩ := h
  cases h with
  | writeCtrl => cases he
  | _ => rfl

theorem Reads.commandWrites (h : Reads s u) : commandWrites u.trace = commandWrites s.trace := by
  obtain ⟨e, he, h⟩ := h
  have hc : isCmd e = false := by
    have hacc := h.isAccess
    cases e <;> simp_all [isAccess, isCmd]
  rw [h.trace, commandWrites_append_other hc he]

/-- A read of the image port, with what the loader keeps of its answer. -/
theorem reads_of_imgRead (s : State) :
    (∀ u, imgRead s = (.err, u) → Reads s u) ∧
    ∀ c u, imgRead s = (.bytes c, u) → Reads s (storeBlock c u) := by
  obtain ⟨plan, -, h⟩ | ⟨c, plan, -, -, -, hlen, -, h⟩ := imgRead_cases s <;> rw [h]
  · refine ⟨fun u hu => ?_, fun c u hu => by simp at hu⟩
    cases hu
    exact (Accesses.fetchFails plan).reads rfl
  · refine ⟨fun u hu => by simp at hu, fun c u hu => ?_⟩
    cases hu
    exact (Accesses.fetch _ plan hlen).reads rfl

/-- The loader's fetch goes on to the write, past the load, or to an error. -/
theorem fetchStep_reads (k : State → State) (s : State) :
    ∃ u, Reads s u ∧ (fetchStep k s = goto s.pc.major .m1 u ∨ fetchStep k s = k u ∨
      ∃ r, r ≠ .ok ∧ fetchStep k s = finish r u) := by
  obtain ⟨herr, hbytes⟩ := reads_of_imgRead s
  obtain ⟨u, hu, h⟩ | ⟨c, u, hu, h⟩ := fetchStep_cases k s
  · exact ⟨u, herr u hu, .inr (.inr ⟨_, by simp, h⟩)⟩
  · refine ⟨_, hbytes c u hu, ?_⟩
    obtain ⟨-, h⟩ | ⟨-, h⟩ | ⟨-, -, -, h⟩ | ⟨-, -, -, h⟩ := h
    · exact .inl h
    · exact .inr (.inl h)
    · exact .inl h
    · exact .inr (.inr ⟨_, by simp, h⟩)

/-! ### The step of a run -/

/-- What a step of a run from `s` can do. -/
inductive RunStep (s : State) : State → Prop where
  /-- A read; the run stays at its major step. At the write half of a read-modify-write `ctl` holds CTRL. -/
  | stays (u : State) (p : Pc) (hread : Reads s u) (hmajor : p.major = s.pc.major)
      (hctl : p.minor = .m1 → p.major ∉ [.run9, .run1, .run12] → u.ctl = u.ctrlReg) :
      RunStep s { u with pc := p }
  /-- A read that completes a major step without a write half. -/
  | passes (u : State) (hread : Reads s u) (hf : fieldAt s = none) : RunStep s (afterMajor s.pc.major u)
  /-- A read after which the command ends with an error. -/
  | fails (u : State) (r : ResultKind) (hread : Reads s u) (hr : r ≠ .ok) : RunStep s (finish r u)
  /-- A write half. -/
  | writesField (f : CtrlField) (val : Nat) (hf : fieldAt s = some (f, val)) (hminor : s.pc.minor = .m1) :
      RunStep s (afterMajor s.pc.major (writeCtrl (insertField (ctrlDesc f) s.ctl val) s))
  /-- A write of the loader; the load goes on, or is complete. -/
  | writesData (p : Pc) (hmajor : s.pc.major = .run9) (hp : p.major = .run9) :
      RunStep s { writeData s.w s with pc := p }
  | writesLast (hmajor : s.pc.major = .run9) : RunStep s (afterMajor s.pc.major (writeData s.w s))

theorem runStep_of_report (hm : s.pc.major = .run1 ∨ s.pc.major = .run12)
    (h : reportStep (afterMajor s.pc.major) s = .next t) : RunStep s t := by
  have hmem : s.pc.major ∈ [.run9, .run1, .run12] := by rcases hm with hm | hm <;> simp [hm]
  obtain ⟨-, rfl⟩ | ⟨-, rfl⟩ | ⟨-, rfl⟩ := reportStep_next.mp h
  · exact .stays _ _ (Accesses.readStat.reads rfl) rfl fun _ hnot => absurd hmem hnot
  · exact .stays _ _ (Accesses.readCtrl.reads rfl) rfl fun _ hnot => absurd hmem hnot
  · exact .passes _ (Accesses.readGpio.reads rfl) (by rcases hm with hm | hm <;> simp [fieldAt, hm])

theorem runStep_of_field {f : CtrlField} {val : Nat} (hf : fieldAt s = some (f, val))
    (hfits : fitsField (ctrlDesc f) val = true)
    (h : controlFieldStep f val (goto s.pc.major .m1) (afterMajor s.pc.major) s = .next t) : RunStep s t := by
  obtain ⟨hunfit, -⟩ | ⟨-, -, rfl⟩ | ⟨-, hminor, rfl⟩ := controlFieldStep_next.mp h
  · simp [hunfit] at hfits
  · exact .stays _ _ (Accesses.readCtrl.reads rfl) rfl fun _ _ => rfl
  · exact .writesField f val hf hminor

theorem runStep_of_wait {mode : BitVec 3} (hm : awaited s.pc.major = some mode)
    (h : waitStep mode (afterMajor s.pc.major) s = .next t) : RunStep s t := by
  have hf : fieldAt s = none := by cases hmaj : s.pc.major <;> simp_all [awaited, fieldAt]
  cases hl : s.cfg.pollLimit with
  | none =>
    have hread : Reads s (readStat s) := Accesses.readStat.reads rfl
    obtain ⟨hk, ⟨-, rfl⟩ | ⟨-, rfl⟩⟩ := (waitStep_next_baseline hl).mp h
    · exact .passes _ hread hf
    · exact .stays _ s.pc hread rfl (by simp [hk])
  | some limit =>
    have hread : Reads s (countPoll (readStat s)) :=
      (Accesses.pollStat limit (isWait_of_awaited hm) hl).reads rfl
    obtain ⟨hk, ⟨-, rfl⟩ | ⟨-, -, rfl⟩ | ⟨-, -, rfl⟩⟩ := (waitStep_next_hardened hl).mp h
    · exact .passes _ hread hf
    · exact .fails _ _ hread (by simp)
    · exact .stays _ s.pc hread rfl (by simp [hk])

theorem runStep_of_load (hm : s.pc.major = .run9)
    (h : loadStep (afterMajor s.pc.major) s = .next t) : RunStep s t := by
  obtain ⟨-, rfl⟩ | ⟨-, rfl⟩ := loadStep_next.mp h
  · obtain ⟨u, hread, h | h | ⟨r, hr, h⟩⟩ := fetchStep_reads (afterMajor s.pc.major) s <;> rw [h]
    · exact .stays _ _ hread rfl fun _ hnot => absurd hm (by simp_all)
    · exact .passes _ hread (by simp [fieldAt, hm])
    · exact .fails _ r hread hr
  · obtain ⟨-, h⟩ | ⟨-, h⟩ := writeStep_cases (afterMajor s.pc.major) s <;> rw [h]
    · exact .writesData _ hm hm
    · exact .writesLast hm

/-- Every step of the block inside a run, from a state of the invariant, is one of these. -/
theorem runStep_of_blockStep (hs : s.Inv) (hrun : isRun s.pc.major = true) (h : blockStep s = .next t) :
    RunStep s t := by
  rcases blockStep_cases h with ⟨hpc, -⟩ | ⟨w, rest, hpc, -⟩ | ⟨w, rest, i, hpc, -⟩ | ⟨hm, h⟩ |
    ⟨f, val, hf, h⟩ | ⟨hm, -⟩ | ⟨mode, hm, h⟩ | ⟨hm, h⟩
  · simp [hpc, isRun] at hrun
  · simp [hpc, isRun] at hrun
  · simp [hpc, isRun] at hrun
  · exact runStep_of_report (by rcases hm with hm | hm | hm <;> simp_all [isRun]) h
  · have hbusy : s.pc.major ≠ .idle := fun hidle => by simp [hidle, isRun] at hrun
    obtain ⟨i, hi, hx⟩ := hs.executing hbusy
    obtain ⟨f', val', hf', hfits⟩ := fieldAt_fits (fieldAt_major hf) hi hx.fits
    cases hf.symm.trans hf'
    exact runStep_of_field hf hfits h
  · simp [hm, isRun] at hrun
  · exact runStep_of_wait hm h
  · exact runStep_of_load (hm.resolve_right fun hload => by simp [hload, isRun] at hrun) h

theorem State.Inv.busy_of_run (hs : s.Inv) (hrun : isRun s.pc.major = true) : s.busy = true := by
  obtain ⟨hbusy, -⟩ := hs
  rw [hbusy, decide_eq_true]
  intro hidle
  simp [hidle, isRun] at hrun

theorem resultCode_ne_one {r : ResultKind} (hr : r ≠ .ok) : resultCode r ≠ 1 := by
  cases r <;> simp_all [resultCode]

/-- A run ends with an error and a read, or with `Ok` by the last read of its final report. -/
theorem RunStep.ends (h : RunStep s t) (hbusy : s.busy = true) (hrun : isRun s.pc.major = true)
    (ht : t.busy = false) :
    (t.result ≠ 1 ∧ ∃ r u, Reads s u ∧ t = finish r u) ∨
    (t.result = 1 ∧ s.pc.major = .run12 ∧ ∃ u, Reads s u ∧ t = finish .ok u) := by
  cases h with
  | stays u p hread => simp [hread.busy, hbusy] at ht
  | passes u hread =>
    by_cases hlast : s.pc.major = .run12
    · rw [hlast]
      exact .inr ⟨rfl, rfl, u, hread, rfl⟩
    · rw [afterMajor_busy hrun hlast, hread.busy, hbusy] at ht
      cases ht
  | fails u r hread hr => exact .inl ⟨resultCode_ne_one hr, r, u, hread, rfl⟩
  | writesField f val hf =>
    have hlast : s.pc.major ≠ .run12 := fun hlast => by simp [fieldAt, hlast] at hf
    rw [afterMajor_busy hrun hlast, writeCtrl_busy, hbusy] at ht
    cases ht
  | writesData => simp [hbusy] at ht
  | writesLast hm =>
    rw [afterMajor_busy hrun (by simp [hm]), writeData_busy, hbusy] at ht
    cases ht

end Sys2Proof.Machine
end

section
/-! PROOF. The writes of a run come in the order of R166: each part of `RunWritesInOrder` grows with the step that
makes its write. -/

namespace Sys2Proof.Machine

variable {s t u : State} {tr tr' : List Event} {c : Config} {m m' : Major}

/-! ### How the account of writes grows -/

/-- It depends on the major step only by how many fields are done, and on the trace only by its writes. -/
theorem RunWritesInOrder.congr (h : RunWritesInOrder c m tr) (hwrites : commandWrites tr' = commandWrites tr)
    (hbefore : doneBeforeLoad m' = doneBeforeLoad m) (hafter : doneAfterLoad m' = doneAfterLoad m) :
    RunWritesInOrder c m' tr' := by
  unfold RunWritesInOrder
  rwa [hwrites, hbefore, hafter]

/-- A run begins with no write. -/
theorem runWritesInOrder_begin (c : Config) (w : Halfword) : RunWritesInOrder c .run1 (tr ++ [.cmd w]) :=
  ⟨[], [], [], commandWrites_append_cmd w, .nil, .nil, fun _ => rfl⟩

/-- The write half of a run writes its field. -/
theorem writesField_insertField (c : Config) {f : CtrlField} (val : Nat) (old : Halfword) :
    WritesField c (f, val) (.wr16 (ctrlAddr c) (insertField (ctrlDesc f) old val)) :=
  ⟨_, rfl, extractField_insertField_same (ctrlDesc_inside f) old val⟩

theorem RunWritesInOrder.append_field {f : CtrlField} {val : Nat} (hrun : isRun s.pc.major = true)
    (hf : fieldAt s = some (f, val)) (h : RunWritesInOrder s.cfg s.pc.major s.trace) :
    RunWritesInOrder s.cfg (nextMajor s.pc.major)
      (writeCtrl (insertField (ctrlDesc f) s.ctl val) s).trace := by
  obtain ⟨before, after, words, hwrites, hbefore, hafter, hwords⟩ := h
  have hnew : List.Forall₂ (WritesField s.cfg) [(f, val)]
      [.wr16 (ctrlAddr s.cfg) (insertField (ctrlDesc f) s.ctl val)] :=
    .cons (writesField_insertField ..) .nil
  unfold RunWritesInOrder
  rw [writeCtrl_trace, commandWrites_append_write rfl rfl, hwrites]
  obtain ⟨hlt, hm0, hn0, htake⟩ | ⟨hm5, hn5, htake⟩ := done_next_of_field hrun hf
  · rw [hm0, List.take_zero, List.forall₂_nil_left_iff] at hafter
    subst hafter
    rw [hwords hlt, htake, hn0]
    exact ⟨_, [], [], by simp, List.rel_append hbefore hnew, .nil, fun _ => rfl⟩
  · rw [htake, hn5]
    exact ⟨before, _, words, by simp, hm5 ▸ hbefore, List.rel_append hafter hnew, by simp⟩

/-- During the load the words grow, and no field is written after them yet. -/
theorem RunWritesInOrder.append_word (hm : s.pc.major = .run9)
    (h : RunWritesInOrder s.cfg s.pc.major s.trace) (v : Word) :
    RunWritesInOrder s.cfg s.pc.major (writeData v s).trace := by
  rw [hm] at h ⊢
  obtain ⟨before, after, words, hwrites, hbefore, hafter, -⟩ := h
  obtain rfl : after = [] := List.forall₂_nil_left_iff.mp hafter
  refine ⟨before, [], words ++ [v], ?_, hbefore, .nil, by simp [doneBeforeLoad]⟩
  rw [writeData_trace, commandWrites_append_write rfl rfl, hwrites]
  simp

/-! ### The step and the gap -/

/-- A step that stays in the run keeps the order. -/
theorem RunStep.writesInOrder (h : RunStep s t) (hrun : isRun s.pc.major = true)
    (horder : RunWritesInOrder s.cfg s.pc.major s.trace) (ht : isRun t.pc.major = true) :
    RunWritesInOrder t.cfg t.pc.major t.trace := by
  have hlast (u : State) (hu : isRun (afterMajor s.pc.major u).pc.major = true) : s.pc.major ≠ .run12 :=
    fun hlast => by simp [hlast, afterMajor, isRun] at hu
  cases h with
  | stays u p hread hmajor =>
    rw [hread.cfg, hmajor]
    exact horder.congr hread.commandWrites rfl rfl
  | passes u hread hf =>
    obtain ⟨hbefore, hafter⟩ := done_next_of_no_field hrun (hlast u ht) hf
    rw [afterMajor_cfg, hread.cfg, afterMajor_pc]
    exact horder.congr ((commandWrites_afterMajor _ u).trans hread.commandWrites) hbefore hafter
  | fails => simp [isRun] at ht
  | writesField f val hf =>
    rw [afterMajor_cfg, afterMajor_pc]
    exact (horder.append_field hrun hf).congr (commandWrites_afterMajor ..) rfl rfl
  | writesData p hm hp =>
    rw [hp, ← hm]
    exact horder.append_word hm s.w
  | writesLast hm =>
    rw [afterMajor_cfg, afterMajor_pc]
    have hdone := done_next_of_no_field hrun (hlast _ ht) (by simp [fieldAt, hm])
    exact (horder.append_word hm s.w).congr (commandWrites_afterMajor ..) hdone.1 hdone.2

/-- The step that leaves IDLE for a run has just recorded its command. -/
theorem runWritesInOrder_of_accept (h : blockStep s = .next t) (hidle : s.pc.major = .idle)
    (ht : isRun t.pc.major = true) : RunWritesInOrder t.cfg t.pc.major t.trace := by
  obtain ⟨-, rfl⟩ | ⟨w, rest, -, haccept⟩ := blockStep_idle_next h hidle
  · simp [hidle, isRun] at ht
  · cases haccept with
    | refuse => simp [isRun] at ht
    | enter i =>
      have hentry : entryMajor i = .run1 := by cases i <;> simp_all [entryMajor, isRun]
      rw [goto_pc, hentry]
      exact runWritesInOrder_begin _ w

/-- The gap leaves a run as it is, or resets it to IDLE. -/
theorem applyEnv_runWritesInOrder (hrun : isRun s.pc.major = true)
    (h : RunWritesInOrder s.cfg s.pc.major s.trace) :
    let u := applyEnv s
    u.pc.major = .idle ∨ (isRun u.pc.major = true ∧ RunWritesInOrder u.cfg u.pc.major u.trace) := by
  refine applyEnv_induct (P := fun u => u.pc.major = .idle ∨
    (isRun u.pc.major = true ∧ RunWritesInOrder u.cfg u.pc.major u.trace)) s ?_ (fun _ _ hu => hu)
    (.inr ⟨hrun, h⟩)
  intro ms _ m _ u hu
  cases m with
  | blockReset => exact .inl rfl
  | setWinMapped b =>
    rw [applyMove]
    split <;> exact hu
  | _ => exact hu

/-- Settles O34: the gap keeps the order (`applyEnv_runWritesInOrder`), so does every step of the block inside the
run (`RunStep.writesInOrder`), the accepting step begins with no write, and `Ok` comes only from run step 12
(`RunStep.ends`). -/
theorem runWritesComeInOrder : Obligations.RunWritesComeInOrder := by
  refine ⟨fun s t hs hrun horder hstep ht => ?_, fun s t h hidle ht => runWritesInOrder_of_accept h hidle ht,
    fun s t hs hrun horder h hbusy hresult => ?_⟩
  · obtain ⟨-, hblock⟩ := step_next.mp hstep
    obtain hidle | ⟨hrun', horder'⟩ := applyEnv_runWritesInOrder hrun horder
    · exact runWritesInOrder_of_accept hblock hidle ht
    · exact (runStep_of_blockStep (inv_applyEnv hs) hrun' hblock).writesInOrder hrun' horder' ht
  · obtain ⟨hne, -⟩ | ⟨-, hlast, u, hread, rfl⟩ :=
      (runStep_of_blockStep hs hrun h).ends (hs.busy_of_run hrun) hrun hbusy
    · exact absurd hresult hne
    · rw [finish_cfg, hread.cfg, finish_trace]
      exact (hlast ▸ horder).congr ((commandWrites_append_res _).trans hread.commandWrites) rfl rfl

end Sys2Proof.Machine
end

section
/-! PROOF. What a run leaves in CTRL (R168, R302): with CTRL as storage, the fields of the completed steps over the
value it had before. -/

namespace Sys2Proof.Machine

variable {s t u : State} {before : Halfword}

/-! ### The fields set so far -/

/-- A write half in a run sets its field in what the steps before it left. -/
theorem ctrlDone_next_of_field {f : CtrlField} {val : Nat} (hrun : isRun s.pc.major = true)
    (hf : fieldAt s = some (f, val)) :
    ctrlDone s.cfg (nextMajor s.pc.major) before =
      insertField (ctrlDesc f) (ctrlDone s.cfg s.pc.major before) val := by
  unfold ctrlDone
  obtain ⟨-, hm0, hn0, htake⟩ | ⟨hm5, hn5, htake⟩ := done_next_of_field hrun hf
  · simp [htake, hm0, hn0]
  · simp [htake, hm5, hn5]

/-- A major step without a write half leaves them as they are. -/
theorem ctrlDone_next_of_no_field (hrun : isRun s.pc.major = true) (hlast : s.pc.major ≠ .run12)
    (hf : fieldAt s = none) (c : Config) :
    ctrlDone c (nextMajor s.pc.major) before = ctrlDone c s.pc.major before := by
  obtain ⟨hbefore, hafter⟩ := done_next_of_no_field hrun hlast hf
  rw [ctrlDone, hbefore, hafter, ctrlDone]

/-! ### The step -/

/-- Past a major step only CTRL itself is left to say: the next one begins with its read half. -/
theorem ctrlAsDone_afterMajor {m : Major} (h : u.ctrlReg = ctrlDone u.cfg (nextMajor m) before) :
    CtrlAsDone before (afterMajor m u) := by
  unfold CtrlAsDone
  rw [afterMajor_ctrlReg, afterMajor_cfg, afterMajor_pc]
  exact ⟨h, fun hminor => by cases hminor⟩

theorem RunStep.ctrlAsDone (h : RunStep s t) (hrun : isRun s.pc.major = true) (hdone : CtrlAsDone before s)
    (ht : isRun t.pc.major = true) : CtrlAsDone before t := by
  obtain ⟨hctrl, hctl⟩ := hdone
  have hlast (u : State) (hu : isRun (afterMajor s.pc.major u).pc.major = true) : s.pc.major ≠ .run12 :=
    fun hlast => by simp [hlast, afterMajor, isRun] at hu
  cases h with
  | stays u p hread hmajor hp =>
    refine ⟨?_, fun hminor h9 h1 h12 => hp hminor (by simp_all)⟩
    rw [hread.ctrlReg, hread.cfg, hctrl, hmajor]
  | passes u hread hf =>
    apply ctrlAsDone_afterMajor
    rw [hread.ctrlReg, hctrl, ctrlDone_next_of_no_field hrun (hlast u ht) hf, hread.cfg]
  | fails => simp [isRun] at ht
  | writesField f val hf hminor =>
    have hread : s.ctl = s.ctrlReg := by
      refine hctl hminor ?_ ?_ ?_ <;> intro hm <;> simp [fieldAt, hm] at hf
    apply ctrlAsDone_afterMajor
    rw [writeCtrl_ctrlReg, writeCtrl_cfg, hread, hctrl, ctrlDone_next_of_field hrun hf]
  | writesData p hm hp =>
    refine ⟨?_, fun _ h9 => absurd hp h9⟩
    rw [writeData_ctrlReg, writeData_cfg, hctrl, hm, hp]
  | writesLast hm =>
    apply ctrlAsDone_afterMajor
    rw [writeData_ctrlReg, hctrl,
      ctrlDone_next_of_no_field hrun (by simp [hm]) (by simp [fieldAt, hm]), writeData_cfg]

/-! ### The table of R168 -/

/-- Of the fields of CTRL an insertion changes the one it names. -/
theorem extractField_insertField_ctrl (f g : CtrlField) (old : Halfword) (val : Nat) :
    extractField (ctrlDesc g) (insertField (ctrlDesc f) old val) =
      if g = f then BitVec.ofNat _ val else extractField (ctrlDesc g) old := by
  split
  · rename_i hsame
    subst hsame
    exact extractField_insertField_same (ctrlDesc_inside g) old val
  · rename_i hother
    exact extractField_insertField_disjoint (ctrlDesc_disjoint hother) old val

/-- No insertion of a run reaches the bits that no step names (R33). -/
theorem foldl_insertField_unnamed (ps : List (CtrlField × Nat)) (hps : ∀ p ∈ ps, p.1 ≠ .cfgwdth)
    (old : Halfword) :
    ps.foldl (fun v p => insertField (ctrlDesc p.1) v p.2) old &&& 0xFE3A = old &&& 0xFE3A := by
  induction ps generalizing old with
  | nil => rfl
  | cons p ps ih =>
    rw [List.foldl_cons, ih fun q hq => hps q (List.mem_cons_of_mem p hq)]
    exact insertField_ctrl_unnamed (hps p List.mem_cons_self) old p.2

theorem ctrlDone_unnamed (c : Config) (m : Major) (before : Halfword) :
    ctrlDone c m before &&& 0xFE3A = before &&& 0xFE3A := by
  refine foldl_insertField_unnamed _ (fun p hp => ?_) before
  obtain hp | hp := List.mem_append.mp hp <;> replace hp := List.mem_of_mem_take hp <;>
    simp only [writesBeforeLoad, writesAfterLoad, List.mem_cons, List.not_mem_nil, or_false] at hp <;>
    rcases hp with rfl | rfl | rfl | rfl | rfl <;> simp

/-- The rows of R168, field by field. -/
theorem ctrlDone_rows (c : Config) (before : Halfword) :
    ∀ p ∈ ([(.run4, 1, extractField (ctrlDesc .cdratio) before, extractField (ctrlDesc .axicfgen) before),
        (.run7, 0, c.cdratioConst, extractField (ctrlDesc .axicfgen) before), (.run9, 0, c.cdratioConst, 1),
        (.run10, 0, c.cdratioConst, 1)] : List (Major × BitVec 1 × BitVec 2 × BitVec 1)),
      extractField (ctrlDesc .ctrlEn) (ctrlDone c p.1 before) = 1#1 ∧
      extractField (ctrlDesc .nconfigpull) (ctrlDone c p.1 before) = p.2.1 ∧
      extractField (ctrlDesc .cdratio) (ctrlDone c p.1 before) = p.2.2.1 ∧
      extractField (ctrlDesc .axicfgen) (ctrlDone c p.1 before) = p.2.2.2 := by
  have hratio : BitVec.ofNat (ctrlDesc .cdratio).width c.cdratioConst.toNat = c.cdratioConst :=
    (BitVec.ofNat_toNat ..).trans (BitVec.setWidth_eq _)
  simp only [List.forall_mem_cons, ctrlDone, writesBeforeLoad, writesAfterLoad, doneBeforeLoad, doneAfterLoad,
    List.take, List.append_nil, List.foldl, extractField_insertField_ctrl, hratio,
    reduceCtorEq, if_true, if_false, and_true]
  exact ⟨⟨rfl, rfl⟩, ⟨rfl, rfl, rfl⟩, ⟨rfl, rfl, rfl, rfl⟩, ⟨rfl, rfl, rfl, rfl⟩, by simp⟩

/-- Settles O35: every step that stays in the run sets the fields of the step it completes
(`RunStep.ctrlAsDone`), one that ends it writes nothing (`RunStep.ends`), and the table is `ctrlDone_rows`. -/
theorem runLeavesTheFieldsOfItsSteps : Obligations.RunLeavesTheFieldsOfItsSteps := by
  refine ⟨fun before s t hs hrun hdone h => ?_, fun c before p hp => ?_⟩
  · have hstep := runStep_of_blockStep hs hrun h
    have hends := hstep.ends (hs.busy_of_run hrun) hrun
    refine ⟨hstep.ctrlAsDone hrun hdone, fun ht hne => ?_, fun ht hok => ?_⟩
    · obtain ⟨-, r, u, hread, rfl⟩ | ⟨hok, -⟩ := hends ht
      · rw [finish_ctrlReg, hread.ctrlReg, hdone.1]
      · exact absurd hok hne
    · obtain ⟨hne, -⟩ | ⟨-, hlast, u, hread, rfl⟩ := hends ht
      · exact absurd hok hne
      · rw [finish_ctrlReg, hread.ctrlReg, hdone.1, hlast]
  · have hrows := ctrlDone_rows c before p
    simp only [extractField_eq_extract] at hrows
    obtain ⟨hen, hpull, hratio, haxi⟩ := hrows hp
    exact ⟨hen, hpull, hratio, haxi, ctrlDone_unnamed c p.1 before⟩

end Sys2Proof.Machine
end

section
/-! PROOF. The steps of a run one by one (R153 to R165): acceptance, the two reports, the seven read-modify-writes
and the three waits, with the whole next state of each. -/

namespace Sys2Proof.Machine

variable {s t : State}

/-! ### Acceptance -/

/-- A command whose operand fits is accepted into its first major step, unless the window is unmapped (R210). -/
theorem acceptsInto_of_decodeCmd {w : Halfword} {i : Instr} (hd : decodeCmd w = some i)
    (hfits : valueFits i = true) : AcceptsInto i w (entryMajor i) := by
  intro s hpc
  rw [exec_idle hd (by simp [hpc]), acceptStep_next, acceptStep_next, hpc]
  refine ⟨fun hmap => ⟨rfl, .inl ⟨hmap, ?_⟩⟩, fun hmap => ⟨rfl, .inr (.inr ⟨hmap, hfits, rfl⟩)⟩⟩
  simp [finish, latchCommand, resultCode, ← hpc]

/-! ### The reports -/

/-- In a run the block's step is the meaning of `run_configuration`. -/
theorem exec_run_eq_blockStep (hrun : isRun s.pc.major = true) : exec .runConfiguration s = blockStep s := by
  refine (blockStep_in_progress (fun hidle => ?_) ?_).symm
  · simp [hidle, isRun] at hrun
  · cases hm : s.pc.major <;> simp_all [isRun, inProgress]

theorem exec_run_report {m : Major} {k : Minor} (hm : m = .run1 ∨ m = .run12) (hpc : s.pc = ⟨m, k⟩) :
    exec .runConfiguration s = reportStep (afterMajor m) s := by
  have hmajor : s.pc.major = m := by rw [hpc]
  have hrun : isRun s.pc.major = true := by rcases hm with rfl | rfl <;> rw [hmajor] <;> rfl
  rw [exec_run_eq_blockStep hrun, blockStep_report (by rw [hmajor]; tauto), hmajor]

/-- Settles O27: the word is evaluated, acceptance is `acceptsInto_of_decodeCmd`, and each of the three phases of a
report is one read (`reportStep_next`). -/
theorem runReportsFirstAndLast : Obligations.RunReportsFirstAndLast := by
  have hd : decodeCmd 0x2000 = some .runConfiguration := by decide
  refine ⟨by decide, acceptsInto_of_decodeCmd hd rfl, fun p hp s => ?_⟩
  have hrow : (p.1 = .run1 ∨ p.1 = .run12) ∧ afterMajor p.1 = p.2 := by
    revert p
    exact List.forall_mem_cons.mpr ⟨⟨.inl rfl, rfl⟩, List.forall_mem_cons.mpr ⟨⟨.inr rfl, rfl⟩, by simp⟩⟩
  obtain ⟨hm, hafter⟩ := hrow
  refine ⟨fun hpc => ?_, fun hpc => ?_, fun hpc => ?_⟩ <;>
    rw [exec_run_report hm hpc, reportStep_next]
  · exact .inl ⟨by rw [hpc], by rw [hpc]; rfl⟩
  · exact .inr (.inl ⟨by rw [hpc], by rw [hpc]; rfl⟩)
  · refine .inr (.inr ⟨by rw [hpc], ?_⟩)
    rw [hafter, takeSnap, assembleSnap_eq]
    rfl

/-! ### The read-modify-writes -/

/-- The rows of R165 for the seven read-modify-writes: the field with its mask and position, its value, which fits,
and what follows the write. -/
theorem run_field_rows (s : State) :
    ∀ p ∈ ([(.run2, 0x0001, 0, 1, .run3), (.run3, 0x0004, 2, 1, .run4),
        (.run5, 0x00C0, 6, s.cfg.cdratioConst.setWidth 16, .run6), (.run6, 0x0004, 2, 0, .run7),
        (.run8, 0x0100, 8, 1, .run9), (.run11a, 0x0100, 8, 0, .run11b), (.run11b, 0x0001, 0, 0, .run12)] :
        List (Major × Halfword × Nat × Halfword × Major)),
      s.pc.major = p.1 →
      ∃ f val, fieldAt s = some (f, val) ∧ fitsField (ctrlDesc f) val = true ∧
        fieldMask (ctrlDesc f) 16 = p.2.1 ∧ (ctrlDesc f).shift = p.2.2.1 ∧ BitVec.ofNat 16 val = p.2.2.2.1 ∧
        ∀ u, afterMajor p.1 u =
          { u with pc := ⟨p.2.2.2.2, .m0⟩, polls := if isWait p.2.2.2.2 then 0 else u.polls } := by
  have hratio : fitsField (ctrlDesc .cdratio) s.cfg.cdratioConst.toNat = true :=
    (fitsField_iff _ _).mpr (Nat.le_sub_one_of_lt s.cfg.cdratioConst.isLt)
  simp only [List.forall_mem_cons]
  refine ⟨fun hm => ⟨.ctrlEn, 1, ?_⟩, fun hm => ⟨.nconfigpull, 1, ?_⟩,
    fun hm => ⟨.cdratio, s.cfg.cdratioConst.toNat, ?_⟩, fun hm => ⟨.nconfigpull, 0, ?_⟩,
    fun hm => ⟨.axicfgen, 1, ?_⟩, fun hm => ⟨.axicfgen, 0, ?_⟩, fun hm => ⟨.ctrlEn, 0, ?_⟩, by simp⟩
  case refine_3 =>
    exact ⟨by simp only [fieldAt, hm], hratio, by decide, rfl, BitVec.ofNat_toNat .., fun _ => rfl⟩
  all_goals exact ⟨by simp only [fieldAt, hm], by decide, by decide, rfl, rfl, fun _ => rfl⟩

/-- Settles O28: the halves are `blockStep_field_read` and `blockStep_field_write`, and a value that fits is
inserted without a mask on it (`insertField_of_fits`). -/
theorem runFieldSteps : Obligations.RunFieldSteps := by
  intro s p hp
  have hrow := run_field_rows s p hp
  have hrun : isRun p.1 = true := by
    revert p
    simp [isRun]
  refine ⟨fun hpc => ?_, fun hpc => ⟨_, rfl, ?_⟩⟩
  all_goals
    have hmajor : s.pc.major = p.1 := by rw [hpc]
    obtain ⟨f, val, hf, hfits, hmask, hshift, hval, hafter⟩ := hrow hmajor
    rw [exec_run_eq_blockStep (by rw [hmajor, hrun])]
  · rw [blockStep_field_read hf hfits (by rw [hpc]), hmajor]
    rfl
  · rw [blockStep_field_write hf hfits (by rw [hpc]), hmajor, hafter, insertField_of_fits hfits, hmask, hshift,
      hval]
    rfl

/-! ### The waits -/

/-- The rows of R165 for the three waits. -/
theorem waits_rows : ∀ p ∈ waits,
    isRun p.1 = true ∧ awaited p.1 = some p.2.1 ∧ afterMajor p.1 = goto p.2.2 .m0 := by
  simp only [waits, List.forall_mem_cons]
  exact ⟨⟨rfl, rfl, rfl⟩, ⟨rfl, rfl, rfl⟩, ⟨rfl, rfl, rfl⟩, by simp⟩

/-- At a wait the block polls for the mode of its row, and the step after is that of the row. -/
theorem blockStep_waits {p : Major × BitVec 3 × Major} (hp : p ∈ waits) (hpc : s.pc = ⟨p.1, .m0⟩) :
    blockStep s = waitStep p.2.1 (goto p.2.2 .m0) s := by
  have hmajor : s.pc.major = p.1 := by rw [hpc]
  obtain ⟨-, hawaited, hafter⟩ := waits_rows p hp
  rw [blockStep_wait (hmajor ▸ hawaited), hmajor, hafter]

theorem exec_run_waits {p : Major × BitVec 3 × Major} (hp : p ∈ waits) (hpc : s.pc = ⟨p.1, .m0⟩) :
    exec .runConfiguration s = waitStep p.2.1 (goto p.2.2 .m0) s := by
  rw [exec_run_eq_blockStep (by rw [hpc]; exact (waits_rows p hp).1), blockStep_waits hp hpc]

/-- Settles O29: the two cases of `waitStep_next_baseline`. -/
theorem baselineWaitSteps : Obligations.BaselineWaitSteps := by
  intro p hp s hlimit hpc
  rw [exec_run_waits hp hpc, waitStep_next_baseline hlimit, waitStep_next_baseline hlimit, hpc, modeOf,
    extractField_eq_extract]
  exact ⟨fun hmode => ⟨rfl, .inl ⟨hmode, rfl⟩⟩, fun hmode => ⟨rfl, .inr ⟨hmode, by rw [← hpc]; rfl⟩⟩⟩

/-- Settles O30: the three cases of `waitStep_next_hardened`. -/
theorem hardenedWaitSteps : Obligations.HardenedWaitSteps := by
  intro p hp s limit hlimit hpc
  rw [exec_run_waits hp hpc]
  simp only [waitStep_next_hardened hlimit, hpc, modeOf, extractField_eq_extract]
  exact ⟨fun hmode => ⟨trivial, .inl ⟨hmode, rfl⟩⟩,
    fun hmode hlast => ⟨trivial, .inr (.inl ⟨hmode, hlast, rfl⟩)⟩,
    fun hmode hearly => ⟨trivial, .inr (.inr ⟨hmode, hearly, by rw [← hpc]; rfl⟩)⟩⟩

/-- Settles O31: of the two cases of `waitStep_next_baseline` the one that moves `pc` has read the target. -/
theorem baselineWaitEndsOnlyOnTheTarget : Obligations.BaselineWaitEndsOnlyOnTheTarget := by
  intro p hp s t hlimit hpc h hmoved
  rw [blockStep_waits hp hpc] at h
  obtain ⟨-, ⟨hmode, rfl⟩ | ⟨-, rfl⟩⟩ := (waitStep_next_baseline hlimit).mp h
  · exact ⟨rfl, (extractField_eq_extract modeDesc _).symm.trans hmode, List.getLast?_concat ..⟩
  · exact absurd rfl hmoved

end Sys2Proof.Machine
end

section
/-! PROOF. The hardened wait against a device that never answers (R151, R245): what such a gap leaves, one read that
fails, and the N of them. -/

namespace Sys2Proof.Machine

variable {s t u : State} {mode : BitVec 3} {env : List (List EnvMove)} {limit : Nat}

/-! ### The gap -/

/-- `u` is `s` after moves that neither reset the block nor show `mode`: the device may have changed, but STAT does
not show `mode`, and the block has not moved. -/
structure StillWaits (mode : BitVec 3) (s u : State) : Prop where
  pc : u.pc = s.pc
  busy : u.busy = s.busy
  result : u.result = s.result
  polls : u.polls = s.polls
  snap : u.snap = s.snap
  fifo : u.fifo = s.fifo
  cfg : u.cfg = s.cfg
  trace : u.trace = s.trace
  stat : u.statReg.extractLsb' 0 3 ≠ mode

theorem StillWaits.applyMove {m : EnvMove} (h : StillWaits mode s u) (hreset : m ≠ .blockReset)
    (hshow : ∀ v : Byte, m = .showStat v → v.extractLsb' 0 3 ≠ mode) : StillWaits mode s (applyMove u m) := by
  cases m with
  | showStat v => exact { h with stat := hshow v rfl }
  | setWinMapped b =>
    rw [Machine.applyMove]
    split
    · exact h
    · exact { h with }
  | blockReset => exact absurd rfl hreset
  | _ => exact { h with }

theorem applyEnv_stillWaits (hnever : NeverShows mode s.env) (hstat : s.statReg.extractLsb' 0 3 ≠ mode) :
    StillWaits mode s (applyEnv s) := by
  refine applyEnv_induct s (fun ms hms m hm u hu => ?_) (fun _ _ hu => { hu with })
    ⟨rfl, rfl, rfl, rfl, rfl, rfl, rfl, rfl, hstat⟩
  obtain ⟨hreset, hshow⟩ := hnever ms hms m hm
  exact hu.applyMove hreset hshow

theorem NeverShows.tail (h : NeverShows mode env) : NeverShows mode env.tail :=
  fun ms hms => h ms (List.mem_of_mem_tail hms)

/-! ### The steps of the wait -/

/-- A read of a hardened wait that does not show the target: the last one ends the command, an earlier one is
counted. -/
theorem blockStep_hardened_fails {p : Major × BitVec 3 × Major} (hp : p ∈ waits) (hpc : s.pc = ⟨p.1, .m0⟩)
    (hlimit : s.cfg.pollLimit = some limit) (hstat : s.statReg.extractLsb' 0 3 ≠ p.2.1) :
    blockStep s = .next (if s.polls + 1 = limit then finish .configurationTimedOut (countPoll (readStat s))
      else countPoll (readStat s)) := by
  have hmode : modeOf s.statReg ≠ p.2.1 := by rwa [modeOf, extractField_eq_extract]
  rw [blockStep_waits hp hpc, waitStep_next_hardened hlimit]
  refine ⟨by rw [hpc], .inr ?_⟩
  split
  · exact .inl ⟨hmode, ‹_›, rfl⟩
  · exact .inr ⟨hmode, ‹_›, rfl⟩

/-- The first of several steps. -/
theorem runSteps_succ (h : step s = .next u) (k : Nat) : runSteps (k + 1) s = runSteps k u := by
  rw [runSteps, h]

/-- From `s`, `k` steps are `k` reads of STAT, after which the command has ended with `ConfigurationTimedOut`. -/
def TimesOutAfter (k limit : Nat) (s : State) : Prop :=
  ∃ (t : State) (vs : List Byte), runSteps k s = .next t ∧ t.pc = ⟨.idle, .m0⟩ ∧
    t.busy = false ∧ t.result = 6 ∧ t.polls = limit ∧ t.snap = s.snap ∧ t.fifo = s.fifo ∧ vs.length = k ∧
    t.trace = s.trace ++ vs.map (fun v => Event.rd8 (s.cfg.csrBase + 0x000) v) ++ [.res 6]

theorem timesOutAfter_of_last (hstep : step s = .next (finish .configurationTimedOut (countPoll (readStat u))))
    (hu : StillWaits mode s u) (hlast : s.polls + 1 = limit) : TimesOutAfter 1 limit s := by
  refine ⟨finish .configurationTimedOut (countPoll (readStat u)), [u.statReg], runSteps_succ hstep 0, rfl, rfl,
    rfl, ?_, hu.snap, hu.fifo, rfl, ?_⟩
  · simp [hu.polls, hlast]
  · simp [hu.trace, hu.cfg, statAddr, resultCode]

theorem TimesOutAfter.succ {k : Nat} (hstep : step s = .next (countPoll (readStat u)))
    (hu : StillWaits mode s u) (h : TimesOutAfter k limit (countPoll (readStat u))) :
    TimesOutAfter (k + 1) limit s := by
  obtain ⟨t, vs, hrun, hpc, hbusy, hres, hpolls, hsnap, hfifo, hlen, htrace⟩ := h
  refine ⟨t, u.statReg :: vs, (runSteps_succ hstep k).trans hrun, hpc, hbusy, hres, hpolls,
    hsnap.trans hu.snap, hfifo.trans hu.fifo, by simp [hlen], ?_⟩
  rw [htrace]
  simp [hu.trace, hu.cfg, statAddr]

/-- A wait that has `k + 1` reads left times out after them; by induction on `k`. -/
theorem timesOutAfter_reads_left {p : Major × BitVec 3 × Major} (hp : p ∈ waits) (k : Nat) :
    ∀ s : State, s.cfg.valid = true → s.cfg.pollLimit = some limit → s.pc = ⟨p.1, .m0⟩ →
      s.polls + k + 1 = limit → s.statReg.extractLsb' 0 3 ≠ p.2.1 → NeverShows p.2.1 s.env →
      TimesOutAfter (k + 1) limit s := by
  induction k with
  | zero =>
    intro s hv hlimit hpc hleft hstat hnever
    have hu := applyEnv_stillWaits hnever hstat
    have hblock := blockStep_hardened_fails hp (hu.pc.trans hpc) (hu.cfg ▸ hlimit) hu.stat
    rw [hu.polls, if_pos hleft] at hblock
    exact timesOutAfter_of_last (step_next.mpr ⟨hv, hblock⟩) hu hleft
  | succ k ih =>
    intro s hv hlimit hpc hleft hstat hnever
    have hu := applyEnv_stillWaits hnever hstat
    have hblock := blockStep_hardened_fails hp (hu.pc.trans hpc) (hu.cfg ▸ hlimit) hu.stat
    rw [hu.polls, if_neg (by omega)] at hblock
    refine .succ (step_next.mpr ⟨hv, hblock⟩) hu (ih _ (hu.cfg ▸ hv) (hu.cfg ▸ hlimit) (hu.pc.trans hpc) ?_
      hu.stat ?_)
    · rw [countPoll_polls, readStat_polls, hu.polls]
      omega
    · rw [countPoll_env, readStat_env, applyEnv_env]
      exact hnever.tail

/-- Settles O33: the bound is at least 1 (R7), and a wait that begins with `polls` 0 has all its reads left
(`timesOutAfter_reads_left`). -/
theorem hardenedWaitTimesOut : Obligations.HardenedWaitTimesOut := by
  intro p hp s limit hv hlimit hpc hpolls hstat hnever
  obtain ⟨k, rfl⟩ := Nat.exists_eq_add_one.mpr (limit_pos_of_valid hv limit hlimit)
  exact timesOutAfter_reads_left hp k s hv hlimit hpc (by rw [hpolls, Nat.zero_add]) hstat hnever

end Sys2Proof.Machine
end

section
/-! PROOF. A command in progress under a schedule that is quiet where it matters: how far it has come after each
number of steps, and what a report, a read-modify-write, a wait that is answered at once and a load add to that. -/

namespace Sys2Proof.Machine

variable {s₀ s t u : State} {pc : Pc} {m : Major}

/-! ### Progress -/

/-- How far a command has come: the steps made, CTRL, the FIFO, the writes of the command and the bytes of the image
that are left. -/
structure Progress where
  steps : Nat
  ctrl : Halfword
  fifo : List Word
  writes : List Event
  left : List Byte

variable {p p' : Progress}

/-- After `k` further steps that read and write nothing. -/
def Progress.reads (k : Nat) (p : Progress) : Progress := { p with steps := p.steps + k }

/-- After a read-modify-write of CTRL. -/
def Progress.sets (c : Config) (f : CtrlField) (val : Nat) (p : Progress) : Progress :=
  { p with
    steps := p.steps + 2
    ctrl := insertField (ctrlDesc f) p.ctrl val
    writes := p.writes ++ [.wr16 (ctrlAddr c) (insertField (ctrlDesc f) p.ctrl val)] }

/-- After a fetch that took the next four bytes, or what is left of them. -/
def Progress.fetches (p : Progress) : Progress := { p with steps := p.steps + 1, left := p.left.drop 4 }

/-- After a write of `v` to DATA. -/
def Progress.feeds (c : Config) (v : Word) (p : Progress) : Progress :=
  { p with
    steps := p.steps + 1
    fifo := p.fifo ++ [v]
    writes := p.writes ++ [.wr32 (dataAddr c) v] }

/-- After a whole load. -/
def Progress.loads (c : Config) (p : Progress) : Progress :=
  { p with
    steps := p.steps + loadSteps p.left.length
    fifo := p.fifo ++ packImage p.left
    writes := p.writes ++ (packImage p.left).map (fun v => .wr32 (dataAddr c) v)
    left := [] }

/-- `s` shows the progress `p` since `s₀`, one event a step, and its image source is well-behaved. -/
structure Carries (s₀ : State) (p : Progress) (s : State) : Prop where
  cfg : s.cfg = s₀.cfg
  ctrl : s.ctrlReg = p.ctrl
  fifo : s.fifo = p.fifo
  plan : s.imgPlan = []
  left : s.image.drop s.imgPos = p.left
  events : s.trace.length = s₀.trace.length + p.steps
  writes : commandWrites s.trace = p.writes

/-- After the steps of `p` the machine that began in `s₀` is in `s`, at `pc`. -/
structure StandsAt (s₀ : State) (pc : Pc) (p : Progress) (s : State) : Prop extends Carries s₀ p s where
  reached : runSteps p.steps s₀ = .next s
  pc_eq : s.pc = pc
  env : s.env = s₀.env.drop p.steps

/-- `s`, reached after the steps of `p`, with the gap before the next step behind it, if that gap holds no move. -/
def afterGap (s₀ : State) (p : Progress) (s : State) : State := { s with env := s₀.env.drop (p.steps + 1) }

theorem StandsAt.carries_gap (h : StandsAt s₀ pc p s) : Carries s₀ p (afterGap s₀ p s) := { h with }

theorem StandsAt.major_gap {k : Minor} (h : StandsAt s₀ ⟨m, k⟩ p s) : (afterGap s₀ p s).pc.major = m :=
  congrArg Pc.major h.pc_eq

theorem StandsAt.minor_gap {k : Minor} (h : StandsAt s₀ ⟨m, k⟩ p s) : (afterGap s₀ p s).pc.minor = k :=
  congrArg Pc.minor h.pc_eq

/-- After the steps of `p` the machine that began in `s₀` has just completed the major step `m`. -/
def Completes (s₀ : State) (m : Major) (p : Progress) : Prop :=
  ∃ u, Carries s₀ p u ∧ u.env = s₀.env.drop p.steps ∧ runSteps p.steps s₀ = .next (afterMajor m u)

/-! ### What the accesses add -/

theorem Carries.after_readStat (h : Carries s₀ p s) : Carries s₀ (p.reads 1) (readStat s) :=
  { h with
    events := by rw [readStat_trace, List.length_append, h.events]; rfl
    writes := (commandWrites_append_other rfl rfl).trans h.writes }

theorem Carries.after_readCtrl (h : Carries s₀ p s) : Carries s₀ (p.reads 1) (readCtrl s) :=
  { h with
    events := by rw [readCtrl_trace, List.length_append, h.events]; rfl
    writes := (commandWrites_append_other rfl rfl).trans h.writes }

theorem Carries.after_takeSnap_readGpio (h : Carries s₀ p s) : Carries s₀ (p.reads 1) (takeSnap (readGpio s)) :=
  { h with
    events := by rw [takeSnap_trace, readGpio_trace, List.length_append, h.events]; rfl
    writes := (commandWrites_append_other rfl rfl).trans h.writes }

/-- A read-modify-write is the read half and this. -/
theorem Carries.after_writeCtrl (h : Carries s₀ (p.reads 1) s) (hctl : s.ctl = s.ctrlReg) (f : CtrlField) (val : Nat) :
    Carries s₀ (p.sets s₀.cfg f val) (writeCtrl (insertField (ctrlDesc f) s.ctl val) s) := by
  have hold : s.ctl = p.ctrl := hctl.trans h.ctrl
  exact { h with
    ctrl := by rw [writeCtrl_ctrlReg, hold]; rfl
    events := by rw [writeCtrl_trace, List.length_append, h.events]; rfl
    writes := by rw [writeCtrl_trace, commandWrites_append_write rfl rfl, h.writes, hold, h.cfg]; rfl }

theorem Carries.after_writeData (h : Carries s₀ p s) (v : Word) : Carries s₀ (p.feeds s₀.cfg v) (writeData v s) :=
  { h with
    fifo := by rw [writeData_fifo, h.fifo]; rfl
    events := by rw [writeData_trace, List.length_append, h.events]; rfl
    writes := by rw [writeData_trace, commandWrites_append_write rfl rfl, h.writes, h.cfg]; rfl }

/-- `s` after a well-behaved source has answered (R79). -/
def delivered (s : State) : State := (imgDeliver 4 s).2

theorem Carries.imgRead_eq (h : Carries s₀ p s) : imgRead s = (.bytes (p.left.take 4), delivered s) := by
  rw [imgRead, h.plan, ← h.left]
  rfl

theorem Carries.after_fetch (h : Carries s₀ p s) (c : List Byte) :
    Carries s₀ p.fetches (storeBlock c (delivered s)) where
  cfg := h.cfg
  ctrl := h.ctrl
  fifo := h.fifo
  plan := h.plan
  left := by
    have hpos : s.imgPos + ((s.image.drop s.imgPos).take 4).length =
        s.imgPos + min 4 (s.image.drop s.imgPos).length := by rw [List.length_take]
    change s.image.drop (s.imgPos + ((s.image.drop s.imgPos).take 4).length) = p.left.drop 4
    rw [hpos, ← List.drop_drop, h.left]
    rcases Nat.le_total 4 p.left.length with hlen | hlen
    · rw [Nat.min_eq_left hlen]
    · rw [Nat.min_eq_right hlen, List.drop_length, List.drop_eq_nil_of_le hlen]
  events := by
    change (s.trace ++ [_]).length = _
    rw [List.length_append, h.events]
    rfl
  writes := (commandWrites_append_other rfl rfl).trans h.writes

/-! ### One step -/

theorem runSteps_concat {k : Nat} (h : runSteps k s = .next u) (h' : step u = .next t) :
    runSteps (k + 1) s = .next t := by
  induction k generalizing s with
  | zero =>
    cases h
    simp [runSteps, h']
  | succ k ih =>
    rw [runSteps] at h
    split at h
    · rename_i v hv
      exact (runSteps_succ hv (k + 1)).trans (ih h)
    · cases h
    · cases h

/-- The gap before a step, whether or not the schedule has an entry for it. -/
theorem applyEnv_eq_applyMoves (s : State) :
    applyEnv s = applyMoves (s.env.headD []) { s with env := s.env.tail } := by
  cases henv : s.env with
  | nil =>
    rw [applyEnv_of_nil henv, List.tail_nil, List.headD_nil, ← henv]
    rfl
  | cons ms rest => exact applyEnv_of_cons henv

theorem StandsAt.gap (h : StandsAt s₀ pc p s) :
    applyEnv s = applyMoves (s₀.env.getD p.steps []) (afterGap s₀ p s) := by
  have hhead : s.env.headD [] = s₀.env.getD p.steps [] := by
    rw [h.env, List.headD_eq_head?_getD, List.head?_drop, List.getD_eq_getElem?_getD]
  have htail : s.env.tail = s₀.env.drop (p.steps + 1) := by rw [h.env, List.tail_drop]
  rw [applyEnv_eq_applyMoves, hhead, htail, afterGap]

theorem StandsAt.quiet_gap (h : StandsAt s₀ pc p s) (hgap : s₀.env.getD p.steps [] = []) :
    applyEnv s = afterGap s₀ p s := by
  rw [h.gap, hgap]
  rfl

theorem StandsAt.runSteps (h : StandsAt s₀ pc p s) (hv : s₀.cfg.valid = true)
    (hblock : blockStep (applyEnv s) = .next t) : runSteps (p.steps + 1) s₀ = .next t :=
  runSteps_concat h.reached (step_next.mpr ⟨h.cfg ▸ hv, hblock⟩)

/-- A step to another phase of a command, after a quiet gap. -/
theorem StandsAt.moves_to (h : StandsAt s₀ pc p s) (hv : s₀.cfg.valid = true)
    (hgap : s₀.env.getD p.steps [] = []) {k : Minor}
    (hblock : blockStep (afterGap s₀ p s) = .next (goto m k u))
    (hu : Carries s₀ p' u) (hsteps : p'.steps = p.steps + 1) (henv : u.env = s₀.env.drop (p.steps + 1)) :
    StandsAt s₀ ⟨m, k⟩ p' (goto m k u) :=
  { hu with
    reached := hsteps ▸ h.runSteps hv (h.quiet_gap hgap ▸ hblock)
    pc_eq := rfl
    env := by rw [hsteps, ← henv]; rfl }

/-- A step that completes a major step, after a quiet gap. -/
theorem StandsAt.completes (h : StandsAt s₀ pc p s) (hv : s₀.cfg.valid = true)
    (hgap : s₀.env.getD p.steps [] = [])
    (hblock : blockStep (afterGap s₀ p s) = .next (afterMajor m u))
    (hu : Carries s₀ p' u) (hsteps : p'.steps = p.steps + 1) (henv : u.env = s₀.env.drop (p.steps + 1)) :
    Completes s₀ m p' :=
  ⟨u, hu, hsteps ▸ henv, hsteps ▸ h.runSteps hv (h.quiet_gap hgap ▸ hblock)⟩

/-- Inside a run, past a major step other than the last the machine stands at the next one. -/
theorem Completes.standsAt {m' : Major} (h : Completes s₀ m p) (hnext : nextMajor m = m') (hrun : isRun m = true)
    (hlast : m ≠ .run12) : ∃ t, StandsAt s₀ ⟨m', .m0⟩ p t := by
  subst hnext
  obtain ⟨u, hu, henv, hreached⟩ := h
  have hkept : Carries s₀ p (afterMajor m u) ∧ (afterMajor m u).env = u.env := by
    cases m
    case idle | cmdReport | cmdSetf | cmdReset | cmdLoad => cases hrun
    case run12 => exact absurd rfl hlast
    all_goals exact ⟨{ hu with }, rfl⟩
  exact ⟨_, { hkept.1 with
    reached := hreached
    pc_eq := afterMajor_pc m u
    env := hkept.2.trans henv }⟩

/-! ### Whole major steps -/

/-- The three reads of a report. -/
theorem StandsAt.report (h : StandsAt s₀ ⟨m, .m0⟩ p s) (hm : m = .run1 ∨ m = .run12 ∨ m = .cmdReport)
    (hv : s₀.cfg.valid = true) (hquiet : ∀ j < 3, s₀.env.getD (p.steps + j) [] = []) :
    Completes s₀ m (p.reads 3) := by
  have hstep {k : Minor} {u : State} (hu : u.pc = ⟨m, k⟩) : blockStep u = reportStep (afterMajor m) u := by
    have hmajor : u.pc.major = m := by rw [hu]
    rw [blockStep_report (by rwa [hmajor]), hmajor]
  have hpc : (afterGap s₀ p s).pc = ⟨m, .m0⟩ := h.pc_eq
  have h1 := h.moves_to hv (hquiet 0 (by omega))
    ((hstep hpc).trans (reportStep_next.mpr (.inl ⟨by rw [hpc], by rw [hpc]⟩))) h.carries_gap.after_readStat rfl rfl
  have h2 := h1.moves_to hv (hquiet 1 (by omega))
    ((hstep rfl).trans (reportStep_next.mpr (.inr (.inl ⟨rfl, rfl⟩)))) h1.carries_gap.after_readCtrl rfl rfl
  exact h2.completes hv (hquiet 2 (by omega))
    ((hstep rfl).trans (reportStep_next.mpr (.inr (.inr ⟨rfl, rfl⟩)))) h2.carries_gap.after_takeSnap_readGpio rfl rfl

/-- The two halves of a read-modify-write of CTRL. -/
theorem StandsAt.field {f : CtrlField} {val : Nat} (h : StandsAt s₀ ⟨m, .m0⟩ p s) (hf : fieldAt s = some (f, val))
    (hfits : fitsField (ctrlDesc f) val = true) (hv : s₀.cfg.valid = true)
    (hquiet : ∀ j < 2, s₀.env.getD (p.steps + j) [] = []) : Completes s₀ m (p.sets s₀.cfg f val) := by
  have hf0 : fieldAt (afterGap s₀ p s) = some (f, val) := (fieldAt_congr rfl rfl rfl).trans hf
  have hread : blockStep (afterGap s₀ p s) = .next (goto m .m1 (readCtrl (afterGap s₀ p s))) := by
    rw [blockStep_field_read hf0 hfits h.minor_gap, h.major_gap]
  have h1 := h.moves_to hv (hquiet 0 (by omega)) hread h.carries_gap.after_readCtrl rfl rfl
  have hf1 : fieldAt (afterGap s₀ (p.reads 1) (goto m .m1 (readCtrl (afterGap s₀ p s)))) = some (f, val) := by
    rw [← hf0]
    exact fieldAt_congr h.major_gap.symm rfl rfl
  have hwrite := blockStep_field_write hf1 hfits rfl
  exact h1.completes hv (hquiet 1 (by omega)) hwrite (h1.carries_gap.after_writeCtrl rfl f val) rfl rfl

/-- A wait of the baseline whose first read shows the target. -/
theorem StandsAt.wait {mode : BitVec 3} {a : Byte} (h : StandsAt s₀ ⟨m, .m0⟩ p s) (hm : awaited m = some mode)
    (hlimit : s₀.cfg.pollLimit = none) (ha : a.extractLsb' 0 3 = mode) (hv : s₀.cfg.valid = true)
    (hgap : s₀.env.getD p.steps [] = [.showStat a]) : Completes s₀ m (p.reads 1) := by
  have hmode : modeOf a = mode := (extractField_eq_extract modeDesc a).trans ha
  obtain ⟨u, happly, hpc, henv, hstat, hu⟩ : ∃ u, applyEnv s = u ∧ u.pc = ⟨m, .m0⟩ ∧
      u.env = s₀.env.drop (p.steps + 1) ∧ u.statReg = a ∧ Carries s₀ p u := by
    refine ⟨applyMove (afterGap s₀ p s) (.showStat a), ?_, h.pc_eq, rfl, rfl, { h.carries_gap with }⟩
    rw [h.gap, hgap]
    rfl
  have hmajor : u.pc.major = m := by rw [hpc]
  have hblock : blockStep (applyEnv s) = .next (afterMajor m (readStat u)) := by
    rw [happly, blockStep_wait (by rwa [hmajor]), hmajor, waitStep_next_baseline (by rwa [hu.cfg])]
    exact ⟨by rw [hpc], .inl ⟨by rwa [hstat], rfl⟩⟩
  exact ⟨_, hu.after_readStat, henv, h.runSteps hv hblock⟩

/-! ### The load -/

/-- The words of an image come block by block (R197). -/
theorem packImage_eq_cons (bytes : List Byte) (h : bytes ≠ []) :
    packImage bytes = pack4 (fillBlock (bytes.take 4)) :: packImage (bytes.drop 4) := by
  match bytes with
  | [_] | [_, _] | [_, _, _] | _ :: _ :: _ :: _ :: _ => rfl

theorem loadSteps_of_short {len : Nat} (hpos : len ≠ 0) (hlen : len < 4) : loadSteps len = 2 := by
  unfold loadSteps
  omega

theorem loadSteps_of_full {len : Nat} (hlen : 4 ≤ len) : loadSteps len = 2 + loadSteps (len - 4) := by
  unfold loadSteps
  omega

/-- A block makes its word, then the rest of the load. -/
theorem Progress.loads_of_full (c : Config) (p : Progress) (hlen : 4 ≤ p.left.length) :
    (p.fetches.feeds c (pack4 (fillBlock (p.left.take 4)))).loads c = p.loads c := by
  have hne : p.left ≠ [] := fun hnil => by simp [hnil] at hlen
  simp [loads, feeds, fetches, packImage_eq_cons p.left hne, loadSteps_of_full hlen, Nat.add_assoc]

/-- A short block makes the last word. -/
theorem Progress.loads_of_short (c : Config) (p : Progress) (hne : p.left ≠ []) (hlen : p.left.length < 4) :
    p.fetches.feeds c (pack4 (fillBlock (p.left.take 4))) = p.loads c := by
  have hpos : p.left.length ≠ 0 := fun hzero => hne (List.length_eq_zero_iff.mp hzero)
  simp [loads, feeds, fetches, packImage_eq_cons p.left hne, loadSteps_of_short hpos hlen,
    List.drop_eq_nil_of_le (Nat.le_of_lt hlen), packImage]

/-- With no byte left the load is the one fetch that finds the end. -/
theorem Progress.loads_of_end (c : Config) (p : Progress) (hnil : p.left = []) : p.fetches = p.loads c := by
  simp [loads, fetches, hnil, packImage, loadSteps]

theorem StandsAt.load_step {k : Minor} (h : StandsAt s₀ ⟨m, k⟩ p s) (hm : m = .run9 ∨ m = .cmdLoad) :
    blockStep (afterGap s₀ p s) = loadStep (afterMajor m) (afterGap s₀ p s) := by
  rw [blockStep_load (by rwa [h.major_gap]), h.major_gap]

/-- A fetch that finds bytes leaves the block before the write of their word. -/
theorem StandsAt.fetch (h : StandsAt s₀ ⟨m, .m0⟩ p s) (hm : m = .run9 ∨ m = .cmdLoad)
    (hpolicy : s₀.cfg.shortBlockPolicy = .zeroPad) (hv : s₀.cfg.valid = true)
    (hgap : s₀.env.getD p.steps [] = []) (hne : p.left ≠ []) :
    ∃ t, StandsAt s₀ ⟨m, .m1⟩ p.fetches t ∧ t.w = pack4 (fillBlock (p.left.take 4)) ∧
      t.n = BitVec.ofNat 3 (p.left.take 4).length := by
  have hu := h.carries_gap
  have hfetch : fetchStep (afterMajor m) (afterGap s₀ p s) =
      goto m .m1 (storeBlock (p.left.take 4) (delivered (afterGap s₀ p s))) := by
    have hsome : (p.left.take 4).length ≠ 0 := by simpa using hne
    simp only [fetchStep, hu.imgRead_eq, hsome, hu.cfg, hpolicy, h.major_gap, if_false, ite_self]
  have hblock := (h.load_step hm).trans
    (loadStep_next.mpr (.inl ⟨h.minor_gap, hfetch.symm⟩))
  exact ⟨_, h.moves_to hv hgap hblock (hu.after_fetch _) rfl rfl, rfl, rfl⟩

/-- A fetch that finds the end completes the load. -/
theorem StandsAt.fetch_end (h : StandsAt s₀ ⟨m, .m0⟩ p s) (hm : m = .run9 ∨ m = .cmdLoad)
    (hv : s₀.cfg.valid = true) (hgap : s₀.env.getD p.steps [] = []) (hnil : p.left = []) :
    Completes s₀ m p.fetches := by
  have hu := h.carries_gap
  have hfetch : fetchStep (afterMajor m) (afterGap s₀ p s) =
      afterMajor m (storeBlock (p.left.take 4) (delivered (afterGap s₀ p s))) := by
    rw [fetchStep, hu.imgRead_eq, hnil]
    rfl
  have hblock := (h.load_step hm).trans
    (loadStep_next.mpr (.inl ⟨h.minor_gap, hfetch.symm⟩))
  exact h.completes hv hgap hblock (hu.after_fetch _) rfl rfl

/-- The write of a full block goes back to the fetch. -/
theorem StandsAt.feed_full (h : StandsAt s₀ ⟨m, .m1⟩ p s) (hm : m = .run9 ∨ m = .cmdLoad)
    (hv : s₀.cfg.valid = true) (hgap : s₀.env.getD p.steps [] = []) (hn : s.n = 4) :
    ∃ t, StandsAt s₀ ⟨m, .m0⟩ (p.feeds s₀.cfg s.w) t := by
  have hwrite : writeStep (afterMajor m) (afterGap s₀ p s) =
      goto m .m0 (writeData s.w (afterGap s₀ p s)) := by
    exact (if_pos hn).trans (by rw [h.major_gap]; rfl)
  have hblock := (h.load_step hm).trans
    (loadStep_next.mpr (.inr ⟨h.minor_gap, hwrite.symm⟩))
  exact ⟨_, h.moves_to hv hgap hblock (h.carries_gap.after_writeData s.w) rfl rfl⟩

/-- The write of a short block completes the load. -/
theorem StandsAt.feed_short (h : StandsAt s₀ ⟨m, .m1⟩ p s) (hm : m = .run9 ∨ m = .cmdLoad)
    (hv : s₀.cfg.valid = true) (hgap : s₀.env.getD p.steps [] = []) (hn : s.n ≠ 4) :
    Completes s₀ m (p.feeds s₀.cfg s.w) := by
  have hwrite : writeStep (afterMajor m) (afterGap s₀ p s) =
      afterMajor m (writeData s.w (afterGap s₀ p s)) := by
    exact if_neg hn
  have hblock := (h.load_step hm).trans
    (loadStep_next.mpr (.inr ⟨h.minor_gap, hwrite.symm⟩))
  exact h.completes hv hgap hblock (h.carries_gap.after_writeData s.w) rfl rfl

/-- A whole load under `ZeroPad`, by induction on the bytes left: a full block leaves four fewer. -/
theorem StandsAt.load (hm : m = .run9 ∨ m = .cmdLoad) (hpolicy : s₀.cfg.shortBlockPolicy = .zeroPad)
    (hv : s₀.cfg.valid = true) (len : Nat) :
    ∀ (p : Progress) (s : State), p.left.length = len → StandsAt s₀ ⟨m, .m0⟩ p s →
      (∀ j < loadSteps len, s₀.env.getD (p.steps + j) [] = []) → Completes s₀ m (p.loads s₀.cfg) := by
  induction len using Nat.strong_induction_on with
  | _ len ih =>
    intro p s hlen h hquiet
    by_cases hnil : p.left = []
    · rw [← Progress.loads_of_end s₀.cfg p hnil]
      exact h.fetch_end hm hv (hquiet 0 (by unfold loadSteps; omega)) hnil
    · have hpos : len ≠ 0 := fun hzero => hnil (List.length_eq_zero_iff.mp (hlen.trans hzero))
      have hsteps : 2 ≤ loadSteps len := by unfold loadSteps; omega
      obtain ⟨t, ht, hw, hn⟩ := h.fetch hm hpolicy hv (hquiet 0 (by omega)) hnil
      have hgap : s₀.env.getD p.fetches.steps [] = [] := hquiet 1 (by omega)
      by_cases hfull : 4 ≤ len
      · have hn4 : t.n = 4 := by rw [hn, List.length_take, hlen, Nat.min_eq_left hfull]; rfl
        obtain ⟨v, hfed⟩ := ht.feed_full hm hv hgap hn4
        rw [hw] at hfed
        rw [← Progress.loads_of_full s₀.cfg p (hlen ▸ hfull)]
        refine ih (len - 4) (by omega) _ v ?_ hfed fun j hj => ?_
        · simp [Progress.feeds, Progress.fetches, hlen]
        · have hquiet' := hquiet (2 + j) (by rw [loadSteps_of_full hfull]; omega)
          rwa [← Nat.add_assoc] at hquiet'
      · have hn4 : t.n ≠ 4 := by
          rw [hn, List.length_take, hlen, Nat.min_eq_right (by omega)]
          interval_cases len <;> decide
        rw [← Progress.loads_of_short s₀.cfg p hnil (by omega), ← hw]
        exact ht.feed_short hm hv hgap hn4

end Sys2Proof.Machine
end

section
/-! PROOF. A whole run of the baseline against a device that shows each awaited mode at the first read of the wait
(R166, R170). -/

namespace Sys2Proof.Machine

variable {s₀ s t u : State} {m m' : Major} {p : Progress}

/-! ### The schedule -/

/-- The schedule of a device that answers each wait of a run at once; the image has `len` bytes. -/
def responsiveSchedule (a1 a2 a4 : Byte) (len : Nat) : List (List EnvMove) :=
  List.replicate 8 [] ++ [[.showStat a1]] ++ List.replicate 4 [] ++ [[.showStat a2]] ++
    List.replicate (2 + loadSteps len) [] ++ [[.showStat a4]]

theorem responsiveSchedule_getD (a1 a2 a4 : Byte) (len i : Nat) :
    (responsiveSchedule a1 a2 a4 len).getD i [] =
      if i = 8 then [.showStat a1] else if i = 13 then [.showStat a2]
      else if i = 16 + loadSteps len then [.showStat a4] else [] := by
  simp only [responsiveSchedule, List.getD_eq_getElem?_getD, List.getElem?_append, List.getElem?_replicate,
    List.length_append, List.length_replicate, List.length_cons, List.length_nil, List.getElem?_singleton]
  split_ifs <;> try omega
  all_goals rfl

/-! ### The accepting step -/

/-- Before the first step of a command. -/
def Progress.start (s : State) : Progress :=
  ⟨0, s.ctrlReg, s.fifo, commandWrites s.trace, s.image.drop s.imgPos⟩

/-- After the accepting step. -/
def Progress.accepts (p : Progress) : Progress := { p with steps := p.steps + 1, writes := [] }

theorem standsAt_start (hplan : s.imgPlan = []) : StandsAt s s.pc (.start s) s :=
  ⟨⟨rfl, rfl, rfl, hplan, rfl, rfl, rfl⟩, rfl, rfl, rfl⟩

theorem Carries.after_latchCommand (h : Carries s₀ p s) (w : Halfword) (rest : List Halfword) :
    Carries s₀ p.accepts (latchCommand w { s with cmdPort := rest }) :=
  { h with
    events := by rw [latchCommand_trace, List.length_append, h.events]; rfl
    writes := commandWrites_append_cmd w }

/-- The acceptance of a command whose operand fits, with the window mapped. -/
theorem StandsAt.accept {i : Instr} {w : Halfword} {rest : List Halfword} (h : StandsAt s₀ ⟨.idle, .m0⟩ p s)
    (hport : s.cmdPort = w :: rest) (hd : decodeCmd w = some i) (hfits : valueFits i = true)
    (hmap : s.winMapped = true) (hv : s₀.cfg.valid = true) (hgap : s₀.env.getD p.steps [] = []) :
    ∃ t, StandsAt s₀ ⟨entryMajor i, .m0⟩ p.accepts t := by
  have hblock : blockStep (afterGap s₀ p s) =
      .next (goto (entryMajor i) .m0 (latchCommand w { afterGap s₀ p s with cmdPort := rest })) := by
    rw [blockStep_word (s := afterGap s₀ p s) h.pc_eq hport hd, exec_idle hd (by exact h.major_gap)]
    exact acceptStep_next.mpr ⟨h.minor_gap, .inr (.inr ⟨hmap, hfits, rfl⟩)⟩
  exact ⟨_, h.moves_to hv hgap hblock (h.carries_gap.after_latchCommand w rest) rfl rfl⟩

/-! ### The read-modify-writes of a run -/

/-- Inside a run the field and its value do not depend on `cmd`. -/
theorem fieldAt_congr_run (hrun : isRun s.pc.major = true) (hm : t.pc.major = s.pc.major) (hcfg : t.cfg = s.cfg) :
    fieldAt t = fieldAt s := by
  cases hmaj : s.pc.major <;> simp_all [fieldAt, isRun]

/-- Inside a run every value fits its field. -/
theorem fitsField_of_run {f : CtrlField} {val : Nat} (hrun : isRun s.pc.major = true)
    (hf : fieldAt s = some (f, val)) : fitsField (ctrlDesc f) val = true := by
  have hi : inProgress s = some .runConfiguration := by
    cases hm : s.pc.major <;> simp_all [isRun, inProgress]
  obtain ⟨f', val', hf', hfits⟩ := fieldAt_fits (fieldAt_major hf) hi rfl
  cases hf.symm.trans hf'
  exact hfits

/-- A read-modify-write of a run and the step to the next major. -/
theorem StandsAt.run_field {f : CtrlField} {val : Nat} (h : StandsAt s₀ ⟨m, .m0⟩ p s)
    (hf : fieldAt { s₀ with pc := ⟨m, .m0⟩ } = some (f, val)) (hnext : nextMajor m = m') (hrun : isRun m = true)
    (hv : s₀.cfg.valid = true) (hquiet : ∀ j < 2, s₀.env.getD (p.steps + j) [] = []) :
    ∃ t, StandsAt s₀ ⟨m', .m0⟩ (p.sets s₀.cfg f val) t := by
  have hfits := fitsField_of_run (s := { s₀ with pc := ⟨m, .m0⟩ }) hrun hf
  have hf' : fieldAt s = some (f, val) := by
    rw [← hf]
    exact fieldAt_congr_run hrun (by rw [h.pc_eq]) h.cfg
  have hlast : m ≠ .run12 := by
    rintro rfl
    cases hf
  exact (h.field hf' hfits hv hquiet).standsAt hnext hrun hlast

/-! ### The run -/

/-- The last phase of a run: its final report, and `Ok`. -/
theorem Completes.run_ends (h : Completes s₀ .run12 p) :
    ∃ t, runSteps p.steps s₀ = .next t ∧ t.pc = ⟨.idle, .m0⟩ ∧ t.busy = false ∧ t.result = 1 ∧
      t.ctrlReg = p.ctrl ∧ t.fifo = p.fifo ∧ t.trace.length = s₀.trace.length + p.steps + 1 ∧
      commandWrites t.trace = p.writes := by
  obtain ⟨u, hu, -, hreached⟩ := h
  refine ⟨_, hreached, rfl, rfl, rfl, hu.ctrl, hu.fifo, ?_, (commandWrites_append_res _).trans hu.writes⟩
  change (u.trace ++ [_]).length = _
  rw [List.length_append, hu.events]
  rfl

/-- What a run adds to the progress `p` that it begins with, major step by major step (R165). -/
def Progress.wholeRun (c : Config) (p : Progress) : Progress :=
  p.accepts |>.reads 3
    |>.sets c .ctrlEn 1 |>.sets c .nconfigpull 1 |>.reads 1
    |>.sets c .cdratio c.cdratioConst.toNat |>.sets c .nconfigpull 0 |>.reads 1
    |>.sets c .axicfgen 1 |>.loads c |>.reads 1
    |>.sets c .axicfgen 0 |>.sets c .ctrlEn 0 |>.reads 3

theorem completes_wholeRun {rest : List Halfword} {a1 a2 a4 : Byte} (hv : s.cfg.valid = true)
    (hlimit : s.cfg.pollLimit = none) (hpolicy : s.cfg.shortBlockPolicy = .zeroPad) (hpc : s.pc = ⟨.idle, .m0⟩)
    (hmap : s.winMapped = true) (hport : s.cmdPort = 0x2000 :: rest) (hplan : s.imgPlan = [])
    (ha1 : a1.extractLsb' 0 3 = (1 : BitVec 3)) (ha2 : a2.extractLsb' 0 3 = (2 : BitVec 3))
    (ha4 : a4.extractLsb' 0 3 = (4 : BitVec 3))
    (henv : s.env = responsiveSchedule a1 a2 a4 (s.image.drop s.imgPos).length) :
    Completes s .run12 (Progress.wholeRun s.cfg (.start s)) := by
  set len := (s.image.drop s.imgPos).length with hlen
  have hmoves (i : Nat) := henv ▸ responsiveSchedule_getD a1 a2 a4 len i
  have hquiet (n k : Nat) (hn : n + k ≤ 8 ∨ 9 ≤ n ∧ n + k ≤ 13 ∨ 14 ≤ n ∧ n + k ≤ 16 + loadSteps len ∨
      17 + loadSteps len ≤ n) : ∀ j < k, s.env.getD (n + j) [] = [] := by
    intro j hj
    rw [hmoves, if_neg (by omega), if_neg (by omega), if_neg (by omega)]
  have hstart : StandsAt s ⟨.idle, .m0⟩ (.start s) s := hpc ▸ standsAt_start hplan
  have hd : decodeCmd 0x2000 = some .runConfiguration := by decide
  obtain ⟨_, h1⟩ := hstart.accept hport hd rfl hmap hv (hquiet 0 1 (by omega) 0 (by omega))
  obtain ⟨_, h2⟩ := (h1.report (.inl rfl) hv (hquiet 1 3 (by omega))).standsAt (m' := .run2) rfl rfl (by decide)
  obtain ⟨_, h3⟩ := h2.run_field (m' := .run3) rfl rfl rfl hv (hquiet 4 2 (by omega))
  obtain ⟨_, h4⟩ := h3.run_field (m' := .run4) rfl rfl rfl hv (hquiet 6 2 (by omega))
  obtain ⟨_, h5⟩ := (h4.wait rfl hlimit ha1 hv (hmoves 8)).standsAt (m' := .run5) rfl rfl (by decide)
  obtain ⟨_, h6⟩ := h5.run_field (m' := .run6) rfl rfl rfl hv (hquiet 9 2 (by omega))
  obtain ⟨_, h7⟩ := h6.run_field (m' := .run7) rfl rfl rfl hv (hquiet 11 2 (by omega))
  obtain ⟨_, h8⟩ := (h7.wait rfl hlimit ha2 hv (hmoves 13)).standsAt (m' := .run8) rfl rfl (by decide)
  obtain ⟨_, h9⟩ := h8.run_field (m' := .run9) rfl rfl rfl hv (hquiet 14 2 (by omega))
  obtain ⟨_, h10⟩ := (StandsAt.load (.inl rfl) hpolicy hv len _ _ rfl h9
    (hquiet 16 (loadSteps len) (by omega))).standsAt (m' := .run10) rfl rfl (by decide)
  have hlast : s.env.getD (16 + loadSteps len) [] = [.showStat a4] := by
    rw [hmoves, if_neg (by omega), if_neg (by unfold loadSteps; omega), if_pos rfl]
  obtain ⟨_, h11a⟩ := (h10.wait rfl hlimit ha4 hv hlast).standsAt (m' := .run11a) rfl rfl (by decide)
  obtain ⟨_, h11b⟩ := h11a.run_field (m' := .run11b) rfl rfl rfl hv
    (hquiet (16 + loadSteps len + 1) 2 (by omega))
  obtain ⟨_, h12⟩ := h11b.run_field (m' := .run12) rfl rfl rfl hv
    (hquiet (16 + loadSteps len + 1 + 2) 2 (by omega))
  exact h12.report (.inr (.inl rfl)) hv (hquiet (16 + loadSteps len + 1 + 2 + 2) 3 (by omega))

/-- Settles O37: the major steps one after another (`completes_wholeRun`), the progress they add up to, and the end
of the run (`Completes.run_ends`). -/
theorem runAgainstResponsiveDevice : Obligations.RunAgainstResponsiveDevice := by
  intro s rest a1 a2 a4 hv hlimit hpolicy hpc hmap hport hplan ha1 ha2 ha4 bytes len henv
  have hrun := completes_wholeRun hv hlimit hpolicy hpc hmap hport hplan ha1 ha2 ha4 henv
  obtain ⟨t, hreached, hidle, hbusy, hresult, hctrl, hfifo, htrace, hwrites⟩ := hrun.run_ends
  have hsteps : (Progress.wholeRun s.cfg (.start s)).steps =
      1 + (23 + (len + 3) / 4) + (len / 4 + 1) := by
    change 0 + 1 + 3 + 2 + 2 + 1 + 2 + 2 + 1 + 2 + loadSteps len + 1 + 2 + 2 + 3 = _
    unfold loadSteps
    omega
  rw [hsteps] at hreached htrace
  refine ⟨t, hreached, hidle, hbusy, hresult, hctrl, hfifo, htrace, hwrites.trans ?_⟩
  simp [Progress.wholeRun, Progress.reads, Progress.sets, Progress.loads, Progress.accepts, Progress.start,
    ctrlAddr, dataAddr, bytes]

end Sys2Proof.Machine
end

section
/-! PROOF. The steps of a load, in `load_bitstream` and in run step 9 (R190 to R199, R214): the whole next state of
the fetch and of the write, and what such a step leaves alone. -/

namespace Sys2Proof.Machine

variable {s t u : State} {e : Event} {k : State → State} {c : List Byte} {plan : List ImgPlan}

/-! ### The fetch, by what the image port answers -/

theorem imgRead_of_portDelivers (h : PortDelivers s c plan) :
    imgRead s = (.bytes c, { s with
      imgPlan := plan, imgPos := s.imgPos + c.length, trace := s.trace ++ [.img c] }) := by
  obtain ⟨hplan, rfl, rfl⟩ | ⟨j, hplan, rfl⟩ := h
  · simp only [imgRead, hplan, imgDeliver]
  · rw [imgRead, hplan]
    rfl

/-- A full block, and a short one that is to be padded, goes on to the write. -/
theorem fetchStep_goes_on (h : PortDelivers s c plan)
    (hblock : c.length = 4 ∨ c.length ≠ 0 ∧ s.cfg.shortBlockPolicy = .zeroPad) :
    fetchStep k s = goto s.pc.major .m1 (fetched s c plan) := by
  rw [fetchStep, imgRead_of_portDelivers h]
  obtain hfull | ⟨hsome, hpolicy⟩ := hblock
  · exact if_pos hfull
  · simp only [hsome, hpolicy, if_false, ite_self]
    rfl

theorem fetchStep_at_end (h : PortDelivers s c plan) (hnone : c.length = 0) :
    fetchStep k s = k (fetched s c plan) := by
  rw [fetchStep, imgRead_of_portDelivers h]
  exact (if_neg (by omega)).trans (if_pos hnone)

theorem fetchStep_rejects (h : PortDelivers s c plan) (hsome : c.length ≠ 0) (hshort : c.length ≠ 4)
    (hpolicy : s.cfg.shortBlockPolicy = .reject) : fetchStep k s = ended 5 (fetched s c plan) := by
  simp only [fetchStep, imgRead_of_portDelivers h, hsome, hshort, hpolicy, if_false]
  rfl

theorem fetchStep_fails (h : s.imgPlan = .fail :: plan) :
    fetchStep k s = ended 4 { s with imgPlan := plan, trace := s.trace ++ [.imgErr] } := by
  rw [fetchStep, imgRead, h]
  rfl

/-! ### The two places of a load -/

/-- The command, the major step of the load in it, and what follows the load (R165, R214). -/
def loadPlaces : List (Instr × Major × (State → State)) :=
  [(.loadBitstream, .cmdLoad, ended 1),
    (.runConfiguration, .run9, fun u => { u with pc := ⟨.run10, .m0⟩, polls := 0 })]

theorem exec_loadPlaces {p : Instr × Major × (State → State)} (hp : p ∈ loadPlaces) (hm : s.pc.major = p.2.1) :
    exec p.1 s = loadStep p.2.2 s := by
  obtain ⟨hplace, hbusy, hi, hafter⟩ : (p.2.1 = .run9 ∨ p.2.1 = .cmdLoad) ∧ s.pc.major ≠ .idle ∧
      inProgress s = some p.1 ∧ afterMajor p.2.1 = p.2.2 := by
    simp only [loadPlaces, List.mem_cons, List.not_mem_nil, or_false] at hp
    rcases hp with rfl | rfl
    · exact ⟨.inr rfl, by simp [hm], by simp [inProgress, hm], rfl⟩
    · exact ⟨.inl rfl, by simp [hm], by simp [inProgress, hm], rfl⟩
  rw [← blockStep_in_progress hbusy hi, blockStep_load (by rwa [hm]), hm, hafter]

/-- Settles O23: acceptance is `acceptsInto_of_decodeCmd`; at either place the fetch goes on, ends the load, rejects
the block or fails, by what the image port answers. -/
theorem loaderFetchStep : Obligations.LoaderFetchStep := by
  have hd : decodeCmd 0x3000 = some .loadBitstream := by decide
  refine ⟨by decide, acceptsInto_of_decodeCmd hd rfl, fun p hp s hpc => ?_⟩
  have hmajor : s.pc.major = p.2.1 := congrArg Pc.major hpc
  have hfetch {t : State} (ht : fetchStep p.2.2 s = t) : exec p.1 s = .next t :=
    (exec_loadPlaces hp hmajor).trans (loadStep_next.mpr (.inl ⟨congrArg Pc.minor hpc, ht.symm⟩))
  have hwrite {u : State} (hu : fetchStep p.2.2 s = goto s.pc.major .m1 u) :
      exec p.1 s = .next { u with pc := ⟨p.2.1, .m1⟩ } := hfetch (hmajor ▸ hu)
  refine ⟨fun c plan h => ⟨fun hfull => ?_, fun hnone => ?_, fun hsome _ hpolicy => ?_,
    fun hsome hshort hpolicy => ?_⟩, fun rest h => ?_⟩
  · exact hwrite (fetchStep_goes_on h (.inl hfull))
  · exact hfetch (fetchStep_at_end h hnone)
  · exact hwrite (fetchStep_goes_on h (.inr ⟨hsome, hpolicy⟩))
  · exact hfetch (fetchStep_rejects h hsome hshort hpolicy)
  · exact hfetch (fetchStep_fails h)

/-- Settles O24: one `writeStep` at either place, the next fetch after a full block, else the end of the load. -/
theorem loaderWriteStep : Obligations.LoaderWriteStep := by
  intro p hp s hpc
  have hmajor : s.pc.major = p.2.1 := congrArg Pc.major hpc
  have hstep {t : State} (ht : writeStep p.2.2 s = t) : exec p.1 s = .next t :=
    (exec_loadPlaces hp hmajor).trans (loadStep_next.mpr (.inr ⟨congrArg Pc.minor hpc, ht.symm⟩))
  refine ⟨fun hfull => hstep ?_, fun hshort => hstep (if_neg hshort)⟩
  rw [← hmajor]
  exact if_pos hfull

/-! ### What a step of a load touches -/

theorem isAccess_of_isImageRead (he : isImageRead e = true) : isAccess e = true := by
  cases e with
  | img | imgErr => rfl
  | _ => cases he

/-- The one access of a step of a load is an image read or the write of `w` to DATA. -/
theorem loadStep_event (h : loadStep (afterMajor s.pc.major) s = .next t) :
    ∃ e, (isImageRead e = true ∨ e = .wr32 (dataAddr s.cfg) s.w) ∧
      (t.trace = s.trace ++ [e] ∨ t.trace = s.trace ++ [e, .res t.result]) := by
  have hdone := goesOn_afterMajor s.pc.major
  obtain ⟨-, rfl⟩ | ⟨-, rfl⟩ := loadStep_next.mp h
  · obtain ⟨e, he, htrace⟩ := fetchStep_trace hdone s
    exact ⟨e, .inl he, htrace⟩
  · obtain ⟨u, hu, hgo⟩ := writeStep_performs hdone s
    cases hu
    exact ⟨_, .inr rfl, by simpa using hgo.trace⟩

/-- Such an access leaves all but the loader's registers, the FIFO, the image port's fields and the trace. -/
theorem Accesses.load_frame (h : Accesses s e u) (he : isImageRead e = true ∨ e = .wr32 (dataAddr s.cfg) s.w) :
    u = { s with
      blk := u.blk, n := u.n, w := u.w, fifo := u.fifo, imgPos := u.imgPos, imgPlan := u.imgPlan, trace := u.trace } ∧
    ((∃ c, e = .img c) ∨ e = .imgErr ∨ e = .wr32 (dataAddr s.cfg) s.w) := by
  cases h with
  | fetch c => exact ⟨rfl, .inl ⟨c, rfl⟩⟩
  | fetchFails => exact ⟨rfl, .inr (.inl rfl)⟩
  | writeData => exact ⟨rfl, .inr (.inr rfl)⟩
  | _ => rcases he with he | he <;> cases he

/-- Settles O26: the event of the step (`loadStep_event`) says which access it made (`accesses_of_mem`), and that
access and the move after it have their frames. -/
theorem loadTouchesOnlyImageAndData : Obligations.LoadTouchesOnlyImageAndData := by
  intro s t hplace h
  obtain ⟨e, he, htrace⟩ := loadStep_event (blockStep_load hplace.symm ▸ h)
  obtain ⟨es, hes, hmem, hall⟩ : ∃ es, t.trace = s.trace ++ es ∧ e ∈ es ∧
      ∀ e' ∈ es, e' = e ∨ e' = .res t.result := by
    obtain htrace | htrace := htrace <;> exact ⟨_, htrace, by simp, by simp⟩
  have haccess : isAccess e = true := he.elim isAccess_of_isImageRead fun he => he ▸ rfl
  obtain ⟨u, hu, hmove⟩ := accesses_of_mem h hes hmem haccess
  obtain ⟨hframe, hkind⟩ := hu.load_frame he
  have hevents : ∀ e' ∈ es, (∃ c, e' = .img c) ∨ e' = .imgErr ∨ e' = .wr32 (dataAddr s.cfg) s.w ∨
      e' = .res t.result := by
    intro e' he'
    obtain rfl | hres := hall e' he'
    · exact hkind.imp_right (Or.imp_right .inl)
    · exact .inr (.inr (.inr hres))
  rw [hmove.frame, hframe]
  exact ⟨rfl, rfl, rfl, rfl, rfl, rfl, rfl, es, hes, hevents⟩

end Sys2Proof.Machine
end

section
/-! PROOF. A whole `load_bitstream` from a well-behaved source with no moves of the environment (R197, R198, R305):
block by block, under both policies. -/

namespace Sys2Proof.Machine

variable {s u t : State} {left : List Byte} {words words' : List Word} {reads reads' steps : Nat} {code : BitVec 4}

/-! ### What a load has done -/

/-- From `s` to `u` a load has written these words to DATA, made no other write, and read the image so many times. -/
structure Loads (s : State) (words : List Word) (reads : Nat) (u : State) : Prop where
  cfg : u.cfg = s.cfg
  fifo : u.fifo = s.fifo ++ words
  writes : u.trace.filter isWrite = s.trace.filter isWrite ++ words.map (fun v => .wr32 (dataAddr s.cfg) v)
  imageReads : u.trace.countP isImageRead = s.trace.countP isImageRead + reads

theorem Loads.trans (h : Loads s words reads u) (h' : Loads u words' reads' t) :
    Loads s (words ++ words') (reads + reads') t where
  cfg := h'.cfg.trans h.cfg
  fifo := by rw [h'.fifo, h.fifo, List.append_assoc]
  writes := by rw [h'.writes, h.writes, h.cfg, List.map_append, List.append_assoc]
  imageReads := by rw [h'.imageReads, h.imageReads, Nat.add_assoc]

/-- After these steps from `s` the load has ended with this result code. -/
def LoadEnds (s : State) (steps : Nat) (code : BitVec 4) (words : List Word) (reads : Nat) : Prop :=
  ∃ u, runSteps steps s = .next (ended code u) ∧ Loads s words reads u

/-- `load_bitstream` is before a fetch, these bytes are left of the image, and nothing disturbs it. -/
structure AtFetch (s : State) (left : List Byte) : Prop where
  valid : s.cfg.valid = true
  env : s.env = []
  pc : s.pc = ⟨.cmdLoad, .m0⟩
  plan : s.imgPlan = []
  left_eq : s.image.drop s.imgPos = left

/-! ### One block -/

/-- A run in two stretches. -/
theorem runSteps_add {j k : Nat} (h : runSteps j s = .next u) : runSteps (j + k) s = runSteps k u := by
  induction j generalizing s with
  | zero =>
    cases h
    rw [Nat.zero_add]
  | succ j ih =>
    rw [runSteps] at h
    split at h
    · rename_i v hv
      rw [Nat.succ_add]
      exact (runSteps_succ hv (j + k)).trans (ih h)
    · cases h
    · cases h

/-- A step of `load_bitstream` past acceptance, when no move comes before it. -/
theorem step_of_load (hv : s.cfg.valid = true) (henv : s.env = []) (hm : s.pc.major = .cmdLoad) :
    step s = loadStep (ended 1) s := by
  have hblock : step s = blockStep s := (if_pos hv).trans (by rw [applyEnv_of_nil henv])
  rw [hblock, blockStep_load (.inr hm), hm]
  rfl

/-- After the fetch of the next block. -/
def blockFetched (s : State) (left : List Byte) : State := fetched s (left.take 4) []

/-- After the write of its word. -/
def blockFed (s : State) (left : List Byte) : State :=
  writeData (pack4 (fillBlock (left.take 4))) (blockFetched s left)

theorem loads_blockFetched (s : State) (left : List Byte) : Loads s [] 1 (blockFetched s left) where
  cfg := rfl
  fifo := (List.append_nil _).symm
  writes := List.filter_append ..
  imageReads := List.countP_append ..

theorem loads_blockFed (s : State) (left : List Byte) :
    Loads s [pack4 (fillBlock (left.take 4))] 1 (blockFed s left) := by
  have hfed : Loads (blockFetched s left) [pack4 (fillBlock (left.take 4))] 0 (blockFed s left) :=
    ⟨rfl, rfl, List.filter_append .., List.countP_append ..⟩
  exact (loads_blockFetched s left).trans hfed

theorem AtFetch.portDelivers (h : AtFetch s left) : PortDelivers s (left.take 4) [] :=
  .inl ⟨h.plan, rfl, by rw [h.left_eq]⟩

theorem AtFetch.step_eq (h : AtFetch s left) : step s = .next (fetchStep (ended 1) s) := by
  rw [step_of_load h.valid h.env (congrArg Pc.major h.pc), loadStep_next]
  exact .inl ⟨congrArg Pc.minor h.pc, rfl⟩

/-- A block whose word is written takes two steps: to the next fetch if it is full, else to the end. -/
theorem AtFetch.feeds (h : AtFetch s left) (hne : left ≠ [])
    (hblock : 4 ≤ left.length ∨ s.cfg.shortBlockPolicy = .zeroPad) :
    runSteps 2 s =
      .next (if 4 ≤ left.length then goto .cmdLoad .m0 (blockFed s left) else ended 1 (blockFed s left)) := by
  have hlen : (left.take 4).length = min 4 left.length := List.length_take
  have hpos := List.length_pos_iff.mpr hne
  have hfetch : step s = .next (goto .cmdLoad .m1 (blockFetched s left)) := by
    rw [h.step_eq, fetchStep_goes_on h.portDelivers (hblock.imp (by omega) fun hpad => ⟨by omega, hpad⟩), h.pc]
    rfl
  have hn : (blockFetched s left).n = 4 ↔ 4 ≤ left.length := by
    change BitVec.ofNat 3 (left.take 4).length = BitVec.ofNat 3 4 ↔ _
    rw [← BitVec.toNat_inj, BitVec.toNat_ofNat, BitVec.toNat_ofNat]
    omega
  have hwrite : step (goto .cmdLoad .m1 (blockFetched s left)) =
      .next (writeStep (ended 1) (goto .cmdLoad .m1 (blockFetched s left))) := by
    rw [step_of_load (by exact h.valid) (by exact h.env) rfl]
    rfl
  rw [runSteps_two hfetch hwrite, writeStep, goto_n]
  simp only [hn]
  rfl

/-! ### The load -/

/-- After a full block the load is before the next fetch, with the rest of the image. -/
theorem AtFetch.next (h : AtFetch s left) (hfull : 4 ≤ left.length) :
    AtFetch (goto .cmdLoad .m0 (blockFed s left)) (left.drop 4) where
  valid := h.valid
  env := h.env
  pc := rfl
  plan := rfl
  left_eq := by
    change s.image.drop (s.imgPos + (left.take 4).length) = _
    rw [List.length_take_of_le hfull, ← List.drop_drop, h.left_eq]

/-- A full block adds two steps, its word and one image read to what the rest of the load does. -/
theorem AtFetch.load_of_full (h : AtFetch s left) (hfull : 4 ≤ left.length)
    (hrest : LoadEnds (goto .cmdLoad .m0 (blockFed s left)) steps code words reads) :
    LoadEnds s (2 + steps) code (pack4 (fillBlock (left.take 4)) :: words) (1 + reads) := by
  obtain ⟨u, hu, hloads⟩ := hrest
  have hne : left ≠ [] := List.ne_nil_of_length_pos (by omega)
  have hfed := h.feeds hne (.inl hfull)
  rw [if_pos hfull] at hfed
  exact ⟨u, (runSteps_add hfed).trans hu, (loads_blockFed s left).trans { hloads with }⟩

/-- A short block under `ZeroPad` is the last word. -/
theorem AtFetch.load_of_short (h : AtFetch s left) (hne : left ≠ []) (hshort : left.length < 4)
    (hpad : s.cfg.shortBlockPolicy = .zeroPad) : LoadEnds s 2 1 [pack4 (fillBlock (left.take 4))] 1 := by
  have hfed := h.feeds hne (.inr hpad)
  rw [if_neg (by omega)] at hfed
  exact ⟨_, hfed, loads_blockFed s left⟩

/-- A short block under `Reject` is the end, with no word. -/
theorem AtFetch.load_rejected (h : AtFetch s left) (hne : left ≠ []) (hshort : left.length < 4)
    (hreject : s.cfg.shortBlockPolicy = .reject) : LoadEnds s 1 5 [] 1 := by
  have hlen : (left.take 4).length = min 4 left.length := List.length_take
  have hpos := List.length_pos_iff.mpr hne
  have hstep := h.step_eq.trans
    (congrArg _ (fetchStep_rejects h.portDelivers (by omega) (by omega) hreject))
  exact ⟨_, runSteps_succ hstep 0, loads_blockFetched s left⟩

/-- With no byte left the one fetch finds the end. -/
theorem AtFetch.load_of_end (h : AtFetch s []) : LoadEnds s 1 1 [] 1 :=
  ⟨_, runSteps_succ (h.step_eq.trans (congrArg _ (fetchStep_at_end h.portDelivers rfl))) 0, loads_blockFetched s []⟩

theorem packFullBlocks_of_full (h : 4 ≤ left.length) :
    packFullBlocks left = pack4 (fillBlock (left.take 4)) :: packFullBlocks (left.drop 4) := by
  match left with
  | _ :: _ :: _ :: _ :: _ => rfl

theorem packFullBlocks_of_short (h : left.length < 4) : packFullBlocks left = [] := by
  match left with
  | [] | [_] | [_, _] | [_, _, _] => rfl

/-- A whole load under either policy, by induction on the bytes left: a full block leaves four fewer. -/
theorem AtFetch.load (h : AtFetch s left) :
    (s.cfg.shortBlockPolicy = .zeroPad ∨ left.length % 4 = 0 →
      LoadEnds s (loadSteps left.length) 1 (packImage left) (left.length / 4 + 1)) ∧
    (s.cfg.shortBlockPolicy = .reject → left.length % 4 ≠ 0 →
      LoadEnds s (2 * (left.length / 4) + 1) 5 (packFullBlocks left) (left.length / 4 + 1)) := by
  induction hlen : left.length using Nat.strong_induction_on generalizing s left with
  | _ len ih =>
  subst hlen
  by_cases hfull : 4 ≤ left.length
  · obtain ⟨ihpad, ihreject⟩ := ih (left.length - 4) (by omega) (h.next hfull) List.length_drop
    have hmod : (left.length - 4) % 4 = left.length % 4 := by omega
    have hreads : left.length / 4 + 1 = 1 + ((left.length - 4) / 4 + 1) := by omega
    have hsteps : 2 * (left.length / 4) + 1 = 2 + (2 * ((left.length - 4) / 4) + 1) := by omega
    have hne : left ≠ [] := List.ne_nil_of_length_pos (by omega)
    rw [loadSteps_of_full hfull, packImage_eq_cons left hne, packFullBlocks_of_full hfull, hreads, hsteps, ← hmod]
    exact ⟨fun hpad => h.load_of_full hfull (ihpad hpad),
      fun hreject hsome => h.load_of_full hfull (ihreject hreject hsome)⟩
  · have hshort : left.length < 4 := by omega
    rw [Nat.mod_eq_of_lt hshort, Nat.div_eq_of_lt hshort, packFullBlocks_of_short hshort]
    by_cases hnil : left = []
    · subst hnil
      exact ⟨fun _ => h.load_of_end, fun _ hsome => absurd rfl hsome⟩
    · rw [packImage_eq_cons left hnil, List.drop_eq_nil_of_le hshort.le,
        loadSteps_of_short (List.length_pos_iff.mpr hnil).ne' hshort]
      exact ⟨fun hpad => h.load_of_short hnil hshort
          (hpad.resolve_right fun hzero => hnil (List.length_eq_zero_iff.mp hzero)),
        fun hreject _ => h.load_rejected hnil hshort hreject⟩

/-- What `LoadEnds` says of the state in IDLE. -/
theorem LoadEnds.final (h : LoadEnds s steps code words reads) :
    ∃ t, runSteps steps s = .next t ∧ t.pc = ⟨.idle, .m0⟩ ∧ t.busy = false ∧ t.result = code ∧
      t.fifo = s.fifo ++ words ∧
      t.trace.filter isWrite = s.trace.filter isWrite ++ words.map (fun v => .wr32 (dataAddr s.cfg) v) ∧
      t.trace.countP isImageRead = s.trace.countP isImageRead + reads := by
  obtain ⟨u, hu, hloads⟩ := h
  have hwrites : (ended code u).trace.filter isWrite = u.trace.filter isWrite :=
    (List.filter_append ..).trans (List.append_nil _)
  have hreads : (ended code u).trace.countP isImageRead = u.trace.countP isImageRead := List.countP_append ..
  exact ⟨_, hu, rfl, rfl, rfl, hloads.fifo, hwrites.trans hloads.writes, hreads.trans hloads.imageReads⟩

/-- Settles O25: the load by induction on the bytes left (`AtFetch.load`). -/
theorem loadWritesThePackedImage : Obligations.LoadWritesThePackedImage := by
  intro s hv henv hpc hplan bytes writes
  obtain ⟨hok, hreject⟩ := (AtFetch.mk hv henv hpc hplan rfl : AtFetch s bytes).load
  exact ⟨fun hpad => (hok hpad).final, fun hpolicy hmod => (hreject hpolicy hmod).final⟩

end Sys2Proof.Machine
end

section
/-! PROOF. Commands as a whole (R210, R221, R222): acceptance in the order of its checks, no step for a command
that is not in progress, and how a command ends. -/

namespace Sys2Proof.Machine

variable {s t u : State} {e : Event} {i : Instr} {w : Halfword} {rest : List Halfword}

/-! ### Acceptance -/

/-- With no move of the environment before it, the step is that of the block. -/
theorem step_of_no_moves (hv : s.cfg.valid = true) (henv : s.env = []) : step s = blockStep s := by
  rw [step, if_pos hv, applyEnv_of_nil henv]

/-- The step that finds the word of a command offered: the checks of R210 in their order. -/
theorem blockStep_offered_next (hpc : s.pc = ⟨.idle, .m0⟩) (hport : s.cmdPort = w :: rest)
    (hd : decodeCmd w = some i) :
    blockStep s = .next t ↔
      (s.winMapped = false ∧ t = finish .registerAccessUnavailable (latchCommand w { s with cmdPort := rest })) ∨
      (s.winMapped = true ∧ valueFits i = false ∧
        t = finish .invalidFieldValue (latchCommand w { s with cmdPort := rest })) ∨
      (s.winMapped = true ∧ valueFits i = true ∧
        t = goto (entryMajor i) .m0 (latchCommand w { s with cmdPort := rest })) := by
  rw [blockStep_word hpc hport hd, exec_idle hd (by rw [hpc]), acceptStep_next, hpc]
  exact and_iff_right rfl

/-- A step inside a command leaves the command port and the command register alone (R27, R210). -/
theorem blockStep_busy_port_cmd (hm : s.pc.major ≠ .idle) (h : blockStep s = .next t) :
    t.cmdPort = s.cmdPort ∧ t.cmd = s.cmd := by
  obtain ⟨f, val, -, -, rfl⟩ | ⟨e, u, haccess, hmove⟩ := blockStep_busy_next h hm
  · exact ⟨rfl, rfl⟩
  · rw [hmove.frame]
    cases haccess <;> exact ⟨rfl, rfl⟩

/-- Settles O16: an illegal word is refused (`blockStep_illegal_word`), the word of a command meets the checks of
`blockStep_offered_next`, and a busy step takes no word (`blockStep_busy_port_cmd`). -/
theorem acceptanceInTheOrderOfTheChecks : Obligations.AcceptanceInTheOrderOfTheChecks := by
  refine ⟨fun s w rest hv henv hpc hport => ?_, fun s t henv hm h => ?_⟩
  · rw [step_of_no_moves hv henv]
    refine ⟨fun hd => ?_, fun i hd => ?_⟩
    · rw [blockStep_illegal_word hpc hport hd]
      rfl
    · simp only [blockStep_offered_next hpc hport hd]
      refine ⟨fun hmap => .inl ⟨hmap, rfl⟩, fun hmap hunfit => .inr (.inl ⟨hmap, hunfit, rfl⟩),
        fun hmap hfits => .inr (.inr ⟨hmap, hfits, ?_⟩)⟩
      cases i <;> rfl
  · have hblock : blockStep s = .next t := applyEnv_of_nil henv ▸ (step_next.mp h).2
    exact blockStep_busy_port_cmd hm hblock

/-! ### Commands that are not in progress -/

theorem setterStep_refused {f : CtrlField} {val : BitVec 8} (hbusy : s.pc.major ≠ .idle)
    (hother : ¬ (s.pc.major = .cmdSetf ∧ s.cmd = cmdWord i)) :
    setterStep i f val s = .refused .notInProgress := by
  rw [setterStep, if_neg hbusy, if_neg hother]

theorem execRunConfiguration_refused (hbusy : s.pc.major ≠ .idle) (hrun : isRun s.pc.major = false) :
    execRunConfiguration s = .refused .notInProgress := by
  unfold execRunConfiguration
  cases hm : s.pc.major <;> simp_all [isRun]

theorem inProgress_of_run (hrun : isRun s.pc.major = true) : inProgress s = some .runConfiguration := by
  cases hm : s.pc.major <;> simp_all [isRun, inProgress]

/-- Settles O17: a command has steps at its own majors alone, and a setter only while `cmd` holds its word; there it
is the one in progress. -/
theorem commandsAreRefusedWhileAnotherIsInProgress : Obligations.CommandsAreRefusedWhileAnotherIsInProgress := by
  intro s i _ hbusy hformat hother
  cases i with
  | reportStatus | loadBitstream | reset =>
    exact (if_neg hbusy).trans (if_neg fun hm => hother (by simp [inProgress, hm]))
  | runConfiguration =>
    exact execRunConfiguration_refused hbusy (Bool.eq_false_iff.mpr fun hrun => hother (inProgress_of_run hrun))
  | setCtrlEn | setNconfigpull | setCdratio | setAxicfgen =>
    exact setterStep_refused hbusy fun ⟨hm, hcmd⟩ =>
      hother (inProgress_entry (decodeCmd_cmdWord hformat) hm hcmd)
  | _ => cases hformat

/-! ### How a command ends -/

theorem State.Inv.busy_eq (hs : s.Inv) : s.busy = decide (s.pc.major ≠ .idle) := by
  obtain ⟨hbusy, -⟩ := hs
  exact hbusy

theorem State.Inv.pc_of_idle (hs : s.Inv) (hm : s.pc.major = .idle) : s.pc = ⟨.idle, .m0⟩ := by
  rw [← hm, ← minor_eq_m0 hs.pc_legal (.inl hm)]

theorem resultCode_ne_zero (r : ResultKind) : resultCode r ≠ 0 := by
  cases r <;> decide

theorem Accesses.busy_result (h : Accesses s e u) : u.busy = s.busy ∧ u.result = s.result := by
  cases h <;> exact ⟨rfl, rfl⟩

/-- From `u` to `t` the command goes on: neither its outputs nor the trace change. -/
def StaysInCommand (u t : State) : Prop := t.busy = u.busy ∧ t.result = u.result ∧ t.trace = u.trace

/-- Past a major step a command goes on, or ends with `Ok`. -/
theorem afterMajor_stays_or_finishes (m : Major) (u : State) :
    StaysInCommand u (afterMajor m u) ∨ afterMajor m u = finish .ok u := by
  cases m with
  | idle | run12 | cmdReport | cmdSetf | cmdReset | cmdLoad => exact .inr rfl
  | _ => exact .inl ⟨rfl, rfl, rfl⟩

/-- After its access a step goes on in its command, or ends it. -/
theorem MovesOn.stays_or_finishes (h : MovesOn s u t) : StaysInCommand u t ∨ ∃ r, t = finish r u := by
  cases h with
  | done => exact (afterMajor_stays_or_finishes _ u).imp_right fun h => ⟨.ok, h⟩
  | ends r => exact .inr ⟨r, rfl⟩
  | _ => exact .inl ⟨rfl, rfl, rfl⟩

/-- A step inside a command adds its access and leaves the result, or ends the command with a result (R222). -/
theorem State.Inv.busy_next_outputs (hs : s.Inv) (hbusy : s.busy = true) (h : blockStep s = .next t) :
    (t.busy = true ∧ t.result = s.result ∧ ∃ e, isAccess e = true ∧ t.trace = s.trace ++ [e]) ∨
    ∃ r u, t = finish r u := by
  have hm : s.pc.major ≠ .idle := of_decide_eq_true (hs.busy_eq ▸ hbusy)
  obtain ⟨e, u, haccess, hmove⟩ := hs.busy_next hm h
  obtain ⟨hb, hr⟩ := haccess.busy_result
  obtain ⟨hb', hr', htrace⟩ | ⟨r, rfl⟩ := hmove.stays_or_finishes
  · exact .inl ⟨hb'.trans (hb.trans hbusy), hr'.trans hr, e, haccess.isAccess, htrace.trans haccess.trace⟩
  · exact .inr ⟨r, u, rfl⟩

/-- A word offered in IDLE enters its command with result 0, or is refused with result 2, 3 or 7 (R25, R210). -/
theorem blockStep_offered_outputs (hpc : s.pc = ⟨.idle, .m0⟩) (hport : s.cmdPort = w :: rest)
    (h : blockStep s = .next t) :
    (t.busy = true ∧ t.result = 0 ∧ t.trace = s.trace ++ [.cmd w]) ∨
    (t.busy = false ∧ t.pc = ⟨.idle, .m0⟩ ∧ t.result ∈ ([2, 3, 7] : List (BitVec 4)) ∧
      t.trace = s.trace ++ [.cmd w, .res t.result]) := by
  have hrefused {r : ResultKind} (hr : resultCode r ∈ ([2, 3, 7] : List (BitVec 4)))
      (ht : t = finish r (latchCommand w { s with cmdPort := rest })) :
      t.busy = false ∧ t.pc = ⟨.idle, .m0⟩ ∧ t.result ∈ ([2, 3, 7] : List (BitVec 4)) ∧
        t.trace = s.trace ++ [.cmd w, .res t.result] := by
    subst ht
    exact ⟨rfl, rfl, hr, List.append_assoc ..⟩
  cases hd : decodeCmd w with
  | none =>
    rw [blockStep_illegal_word hpc hport hd] at h
    exact .inr (hrefused (by decide) (Host.Outcome.next.inj h).symm)
  | some i =>
    obtain ⟨-, ht⟩ | ⟨-, -, ht⟩ | ⟨-, -, rfl⟩ := (blockStep_offered_next hpc hport hd).mp h
    · exact .inr (hrefused (by decide) ht)
    · exact .inr (hrefused (by decide) ht)
    · exact .inl ⟨rfl, rfl, rfl⟩

/-- Settles O44: the outputs of a busy step are those of `State.Inv.busy_next_outputs`, those of a word offered in
IDLE those of `blockStep_offered_outputs`. -/
theorem completionReportsTheResult : Obligations.CompletionReportsTheResult := by
  intro s t hs h
  have hidle (hfree : s.busy = false) : s.pc = ⟨.idle, .m0⟩ :=
    hs.pc_of_idle (not_not.mp (of_decide_eq_false (hs.busy_eq ▸ hfree)))
  refine ⟨fun hbusy hfree => ?_, fun hbusy hbusy' => ?_, fun hfree hport => ?_, fun hfree w rest hport => ?_⟩
  · obtain ⟨hbusy', -⟩ | ⟨r, u, rfl⟩ := hs.busy_next_outputs hbusy h
    · simp [hfree] at hbusy'
    · exact ⟨rfl, resultCode_ne_zero r, List.getLast?_concat ..⟩
  · obtain ⟨-, hresult, htrace⟩ | ⟨r, u, rfl⟩ := hs.busy_next_outputs hbusy h
    · exact ⟨hresult, htrace⟩
    · cases hbusy'
  · rw [blockStep_no_word (hidle hfree) hport] at h
    cases h
    rfl
  · exact blockStep_offered_outputs (hidle hfree) hport h

end Sys2Proof.Machine
end

section
/-! PROOF. The commands of a fixed number of steps: `report_status`, the four setters and `reset` (R211, R212, R215
to R219), step by step and as a whole. -/

namespace Sys2Proof.Machine

variable {s t u v : State} {i : Instr} {f : CtrlField} {val : BitVec 8} {w : Halfword} {rest : List Halfword}

/-! ### Runs of a few steps -/

theorem runSteps_three (h : step s = .next t) (h' : step t = .next u) (h'' : step u = .next v) :
    runSteps 3 s = .next v :=
  (runSteps_succ h 2).trans (runSteps_two h' h'')

/-- With no move of the environment, the step that finds a legal word whose operand fits, the window mapped, enters
the command (R210). -/
theorem step_enters (hv : s.cfg.valid = true) (henv : s.env = []) (hpc : s.pc = ⟨.idle, .m0⟩)
    (hmap : s.winMapped = true) (hport : s.cmdPort = w :: rest) (hd : decodeCmd w = some i)
    (hfits : valueFits i = true) :
    step s = .next (goto (entryMajor i) .m0 (latchCommand w { s with cmdPort := rest })) := by
  rw [step_of_no_moves hv henv]
  exact (blockStep_offered_next hpc hport hd).mpr (.inr (.inr ⟨hmap, hfits, rfl⟩))

/-! ### `report_status` (R211) -/

theorem blockStep_cmdReport {k : Minor} (hpc : s.pc = ⟨.cmdReport, k⟩) :
    blockStep s = reportStep (finish .ok) s := by
  rw [blockStep_report (by simp [hpc]), hpc]
  rfl

theorem exec_reportStatus {k : Minor} (hpc : s.pc = ⟨.cmdReport, k⟩) :
    exec .reportStatus s = reportStep (finish .ok) s := by
  rw [← blockStep_cmdReport hpc]
  exact (blockStep_in_progress (by simp [hpc]) (by simp [inProgress, hpc])).symm

/-- The first read of a report. -/
theorem reportStep_first {k : State → State} (hpc : s.pc = ⟨.cmdReport, .m0⟩) :
    reportStep k s = .next (goto .cmdReport .m1 (readStat s)) :=
  reportStep_next.mpr (.inl ⟨by rw [hpc], by rw [hpc]⟩)

/-- The second read of a report. -/
theorem reportStep_second {k : State → State} (hpc : s.pc = ⟨.cmdReport, .m1⟩) :
    reportStep k s = .next (goto .cmdReport .m2 (readCtrl s)) :=
  reportStep_next.mpr (.inr (.inl ⟨by rw [hpc], by rw [hpc]⟩))

/-- The last read of a report, which takes the snapshot. -/
theorem reportStep_last {k : State → State} (hpc : s.pc = ⟨.cmdReport, .m2⟩) :
    reportStep k s = .next (k (takeSnap (readGpio s))) :=
  reportStep_next.mpr (.inr (.inr ⟨by rw [hpc], rfl⟩))

/-- Settles O18: acceptance is `acceptsInto_of_decodeCmd`, each phase is one read, and the snapshot is taken from the
bits of `assembleSnap_eq`. -/
theorem reportStatusSteps : Obligations.ReportStatusSteps := by
  refine ⟨by decide, acceptsInto_of_decodeCmd (i := .reportStatus) (by decide) rfl, fun s =>
    ⟨fun hpc => ?_, fun hpc => ?_, fun hpc => ?_⟩⟩ <;> rw [exec_reportStatus hpc]
  · exact reportStep_first hpc
  · exact reportStep_second hpc
  · rw [reportStep_last hpc, takeSnap, assembleSnap_eq]
    rfl

/-- The three steps of a report: `a`, `b` and `c` are what the gaps before them leave. -/
theorem runSteps_cmdReport {a b c : State} (hv : s.cfg.valid = true)
    (ha : applyEnv s = a) (hpca : a.pc = ⟨.cmdReport, .m0⟩)
    (hb : applyEnv (goto .cmdReport .m1 (readStat a)) = b) (hpcb : b.pc = ⟨.cmdReport, .m1⟩)
    (hc : applyEnv (goto .cmdReport .m2 (readCtrl b)) = c) (hpcc : c.pc = ⟨.cmdReport, .m2⟩) :
    runSteps 3 s = .next (finish .ok (takeSnap (readGpio c))) := by
  have hcfga : a.cfg = s.cfg := ha ▸ applyEnv_cfg s
  have hcfgb : b.cfg = s.cfg := (hb ▸ applyEnv_cfg _).trans hcfga
  have hstat : step s = .next (goto .cmdReport .m1 (readStat a)) :=
    step_next.mpr ⟨hv, by rw [ha, blockStep_cmdReport hpca, reportStep_first hpca]⟩
  have hctrl : step (goto .cmdReport .m1 (readStat a)) = .next (goto .cmdReport .m2 (readCtrl b)) :=
    step_next.mpr ⟨hcfga ▸ hv, by rw [hb, blockStep_cmdReport hpcb, reportStep_second hpcb]⟩
  have hgpio : step (goto .cmdReport .m2 (readCtrl b)) = .next (finish .ok (takeSnap (readGpio c))) :=
    step_next.mpr ⟨hcfgb ▸ hv, by rw [hc, blockStep_cmdReport hpcc, reportStep_last hpcc]⟩
  exact runSteps_three hstat hctrl hgpio

/-- Settles O19: acceptance (`step_enters`) and the three reads with nothing in the gaps (`runSteps_cmdReport`). -/
theorem reportStatusNeverMutates : Obligations.ReportStatusNeverMutates := by
  intro s rest hv henv hpc hmap hport
  have henter := step_enters hv henv hpc hmap hport (i := .reportStatus) (by decide) rfl
  have hreport := runSteps_cmdReport (s := goto .cmdReport .m0 (latchCommand 0x1000 { s with cmdPort := rest })) hv
    (applyEnv_of_nil henv) rfl (applyEnv_of_nil henv) rfl (applyEnv_of_nil henv) rfl
  refine ⟨_, (runSteps_succ henter 3).trans hreport, rfl, rfl, rfl, ?_, rfl, rfl, rfl, rfl, rfl⟩
  simp [isWrite]

/-- Settles O55: the device moves on in each gap, and each read is answered by what it shows then
(`runSteps_cmdReport`). -/
theorem snapshotIsNotAtomic : Obligations.SnapshotIsNotAtomic := by
  intro s v v' c c' g later hv hpc henv
  have hreport := runSteps_cmdReport hv (applyEnv_of_cons henv) hpc
    (applyEnv_of_cons (ms := [.showStat v', .showCtrl c]) rfl) rfl
    (applyEnv_of_cons (ms := [.showCtrl c', .showGpio g]) rfl) rfl
  exact ⟨_, hreport, rfl, rfl, rfl, rfl⟩

/-! ### The setters (R215 to R218) -/

/-- `i` is the setter of the field `f` with the operand `val`. -/
inductive SetterOf (val : BitVec 8) : CtrlField → Instr → Prop where
  | ctrlEn : SetterOf val .ctrlEn (.setCtrlEn val)
  | nconfigpull : SetterOf val .nconfigpull (.setNconfigpull val)
  | cdratio : SetterOf val .cdratio (.setCdratio val)
  | axicfgen : SetterOf val .axicfgen (.setAxicfgen val)

theorem SetterOf.decodeCmd_word (h : SetterOf val f i) : decodeCmd (cmdWord i) = some i :=
  decodeCmd_cmdWord (by cases h <;> rfl)

theorem SetterOf.entryMajor_eq (h : SetterOf val f i) : entryMajor i = .cmdSetf := by
  cases h <;> rfl

theorem SetterOf.valueFits_eq (h : SetterOf val f i) : valueFits i = fitsField (ctrlDesc f) val.toNat := by
  cases h <;> rfl

/-- At `CMD_SETF` the word in `cmd` says which field is set, and to what (R27). -/
theorem SetterOf.fieldAt_eq (h : SetterOf val f i) (hm : s.pc.major = .cmdSetf) (hcmd : s.cmd = cmdWord i) :
    fieldAt s = some (f, val.toNat) := by
  have hd : decodeCmd s.cmd = some i := hcmd ▸ h.decodeCmd_word
  cases h <;> simp only [fieldAt, hm, hd]

/-- Past acceptance the meaning of a setter is the block's step. -/
theorem SetterOf.exec_eq_blockStep (h : SetterOf val f i) (hm : s.pc.major = .cmdSetf)
    (hcmd : s.cmd = cmdWord i) : exec i s = blockStep s :=
  (blockStep_in_progress (by simp [hm])
    (inProgress_entry h.decodeCmd_word (hm.trans h.entryMajor_eq.symm) hcmd)).symm

/-- The rows of R215 to R218: a setter's opcode word, with the mask, the position and the greatest value of its
field. -/
theorem setter_rows (val : BitVec 8) :
    ∀ p ∈ ([(.setCtrlEn val, 0x0001, 0, 1, 0x4000), (.setNconfigpull val, 0x0004, 2, 1, 0x5000),
        (.setCdratio val, 0x00C0, 6, 3, 0x6000), (.setAxicfgen val, 0x0100, 8, 1, 0x7000)] :
        List (Instr × Halfword × Nat × Nat × Halfword)),
      ∃ f, SetterOf val f p.1 ∧ cmdWord p.1 = p.2.2.2.2 ||| val.setWidth 16 ∧
        fieldMask (ctrlDesc f) 16 = p.2.1 ∧ (ctrlDesc f).shift = p.2.2.1 ∧
        2 ^ (ctrlDesc f).width - 1 = p.2.2.2.1 := by
  simp only [List.forall_mem_cons]
  exact ⟨⟨_, .ctrlEn, rfl, by decide, rfl, rfl⟩, ⟨_, .nconfigpull, rfl, by decide, rfl, rfl⟩,
    ⟨_, .cdratio, rfl, by decide, rfl, rfl⟩, ⟨_, .axicfgen, rfl, by decide, rfl, rfl⟩, by simp⟩

/-- A setter whose value is out of range is refused at acceptance, with the result of the check of R210 that fails
first. -/
theorem SetterOf.exec_out_of_range (h : SetterOf val f i) (hunfit : fitsField (ctrlDesc f) val.toNat = false)
    (hpc : s.pc = ⟨.idle, .m0⟩) :
    exec i s = .next (ended (if s.winMapped then 3 else 2)
      { s with cmd := cmdWord i, trace := s.trace ++ [.cmd (cmdWord i)] }) := by
  rw [exec_idle h.decodeCmd_word (by rw [hpc]), acceptStep_next, hpc, h.valueFits_eq]
  refine ⟨rfl, ?_⟩
  by_cases hmap : s.winMapped = true
  · rw [if_pos hmap]
    exact .inr (.inl ⟨hmap, hunfit, rfl⟩)
  · rw [if_neg hmap]
    exact .inl ⟨Bool.eq_false_iff.mpr hmap, rfl⟩

/-- Settles O20: acceptance is `acceptsInto_of_decodeCmd` or `SetterOf.exec_out_of_range`, the halves are
`blockStep_field_read` and `blockStep_field_write`, and a value that fits is inserted without a mask on it
(`insertField_of_fits`). -/
theorem setterSteps : Obligations.SetterSteps := by
  intro val p hp word
  obtain ⟨f, hsetter, hword, hmask, hshift, hgreatest⟩ := setter_rows val p hp
  have hword' : word = cmdWord p.1 := hword.symm
  rw [← hgreatest, ← hmask, ← hshift, hword']
  refine ⟨rfl, fun hval => ?_, fun hval s hpc => ?_, fun hval s hcmd => ⟨fun hpc => ?_, fun hpc => ⟨_, rfl, ?_⟩⟩⟩
  · rw [← hsetter.entryMajor_eq]
    exact acceptsInto_of_decodeCmd hsetter.decodeCmd_word (hsetter.valueFits_eq.trans ((fitsField_iff _ _).mpr hval))
  · exact hsetter.exec_out_of_range (fitsField_eq_false hval) hpc
  all_goals
    have hm : s.pc.major = .cmdSetf := by rw [hpc]
    have hfits := (fitsField_iff (ctrlDesc f) val.toNat).mpr hval
    rw [hsetter.exec_eq_blockStep hm hcmd]
  · rw [blockStep_field_read (hsetter.fieldAt_eq hm hcmd) hfits (by rw [hpc]), hm]
    rfl
  · rw [blockStep_field_write (hsetter.fieldAt_eq hm hcmd) hfits (by rw [hpc]), hm, insertField_of_fits hfits,
      BitVec.ofNat_toNat]
    rfl

/-- The opcode words of the setters and the fields they set. -/
theorem setter_words (val : BitVec 8) :
    ∀ p ∈ ([(0x4000, .ctrlEn), (0x5000, .nconfigpull), (0x6000, .cdratio), (0x7000, .axicfgen)] :
        List (Halfword × CtrlField)),
      ∃ i, SetterOf val p.2 i ∧ cmdWord i = p.1 ||| val.setWidth 16 := by
  simp only [List.forall_mem_cons]
  exact ⟨⟨_, .ctrlEn, rfl⟩, ⟨_, .nconfigpull, rfl⟩, ⟨_, .cdratio, rfl⟩, ⟨_, .axicfgen, rfl⟩, by simp⟩

/-- A read-modify-write of CTRL with no move of the environment: the field is set in what CTRL held. -/
theorem runSteps_field_no_moves {val : Nat} (hv : s.cfg.valid = true) (henv : s.env = [])
    (hf : fieldAt s = some (f, val)) (hfits : fitsField (ctrlDesc f) val = true) (hminor : s.pc.minor = .m0) :
    runSteps 2 s = .next (afterMajor s.pc.major
      (writeCtrl (insertField (ctrlDesc f) s.ctrlReg val) (goto s.pc.major .m1 (readCtrl s)))) := by
  have hf' : fieldAt (goto s.pc.major .m1 (readCtrl s)) = some (f, val) := (fieldAt_congr rfl rfl rfl).trans hf
  exact runSteps_two
    ((step_of_no_moves hv henv).trans (blockStep_field_read hf hfits hminor))
    ((step_of_no_moves (s := goto s.pc.major .m1 (readCtrl s)) hv henv).trans (blockStep_field_write hf' hfits rfl))

/-- Settles O21: acceptance (`step_enters`) and the two halves (`runSteps_field_no_moves`); the value reads back, and
the bits outside the mask are as before (`insertedFieldReadsBack`). -/
theorem setterChangesOneField : Obligations.SetterChangesOneField := by
  intro val p hp s rest hv henv hpc hmap hport hfits
  obtain ⟨i, hsetter, hword⟩ := setter_words val p hp
  rw [← hword] at hport
  have henter := step_enters hv henv hpc hmap hport hsetter.decodeCmd_word (hsetter.valueFits_eq.trans hfits)
  rw [hsetter.entryMajor_eq] at henter
  have hhalves := runSteps_field_no_moves
    (s := goto .cmdSetf .m0 (latchCommand (cmdWord i) { s with cmdPort := rest })) hv henv
    (hsetter.fieldAt_eq rfl rfl) hfits rfl
  obtain ⟨hfield, hother, -⟩ := insertedFieldReadsBack p.2 s.ctrlReg val.toNat hfits
  refine ⟨_, (runSteps_succ henter 2).trans hhalves, rfl, rfl, rfl, hfield, hother, rfl, rfl, rfl, rfl, ?_⟩
  rw [commandWrites_afterMajor, writeCtrl_trace, commandWrites_append_write rfl rfl, goto_trace, readCtrl_trace,
    commandWrites_append_other rfl rfl, goto_trace, latchCommand_trace, commandWrites_append_cmd]
  rfl

/-! ### `reset` (R219) -/

/-- Settles O22: acceptance is `acceptsInto_of_decodeCmd`, the halves are `blockStep_reset_read` and
`blockStep_reset_write`. -/
theorem resetCommandSteps : Obligations.ResetCommandSteps := by
  have hblock {s : State} {k : Minor} (hpc : s.pc = ⟨.cmdReset, k⟩) : exec .reset s = blockStep s :=
    (blockStep_in_progress (by simp [hpc]) (by simp [inProgress, hpc])).symm
  refine ⟨by decide, acceptsInto_of_decodeCmd (i := .reset) (by decide) rfl, fun s =>
    ⟨fun hpc => ?_, fun hpc => ⟨_, rfl, ?_⟩⟩⟩ <;> rw [hblock hpc]
  · exact blockStep_reset_read hpc
  · rw [blockStep_reset_write hpc, insertField_mode_one]
    rfl

end Sys2Proof.Machine
end

section
/-! PROOF. The baseline wait against a device that never answers (R150, R255): each pass is a read after which the
block stands where it stood. -/

namespace Sys2Proof.Machine

variable {s : State}

/-- A read of a baseline wait that does not show the target changes neither `pc` nor the outputs. -/
theorem blockStep_baseline_waits {p : Major × BitVec 3 × Major} (hp : p ∈ waits) (hpc : s.pc = ⟨p.1, .m0⟩)
    (hlimit : s.cfg.pollLimit = none) (hstat : s.statReg.extractLsb' 0 3 ≠ p.2.1) :
    blockStep s = .next (readStat s) := by
  have hmode : modeOf s.statReg ≠ p.2.1 := by rwa [modeOf, extractField_eq_extract]
  rw [blockStep_waits hp hpc, waitStep_next_baseline hlimit]
  exact ⟨by rw [hpc], .inr ⟨hmode, rfl⟩⟩

/-- Settles O32, by induction on the number of steps: the gap leaves the block waiting (`applyEnv_stillWaits`), the
step is a read (`blockStep_baseline_waits`), and the state after it is again at the wait. -/
theorem baselineWaitHangs : Obligations.BaselineWaitHangs := by
  intro p hp s hv hlimit hpc hstat hnever k
  induction k generalizing s with
  | zero => exact ⟨s, [], rfl, rfl, rfl, rfl, rfl, (List.append_nil _).symm⟩
  | succ k ih =>
    have hu := applyEnv_stillWaits hnever hstat
    have hblock := blockStep_baseline_waits hp (hu.pc.trans hpc) (hu.cfg ▸ hlimit) hu.stat
    have hstep := step_next.mpr ⟨hv, hblock⟩
    have hnever' : NeverShows p.2.1 (readStat (applyEnv s)).env := by
      rw [readStat_env, applyEnv_env]
      exact hnever.tail
    obtain ⟨t, vs, hrun, hpc', hbusy, hresult, hlen, htrace⟩ :=
      ih (readStat (applyEnv s)) (hu.cfg ▸ hv) (hu.cfg ▸ hlimit) (hu.pc.trans hpc) hu.stat hnever'
    refine ⟨t, (applyEnv s).statReg :: vs, (runSteps_succ hstep k).trans hrun, hpc'.trans hu.pc,
      hbusy.trans hu.busy, hresult.trans hu.result, by simp [hlen], ?_⟩
    rw [htrace]
    simp [hu.trace, statAddr]

end Sys2Proof.Machine
end

section
/-! PROOF. How a command in progress can fail (R247, R249, R266): which read led to the error and where, hence which
results come from which command and what an error leaves alone. -/

namespace Sys2Proof.Machine

variable {s t u : State} {i : Instr} {r : ResultKind} {m : Major}

/-! ### The errors after acceptance -/

/-- A step from `s` fails with `r` after a read that leaves `u`: the image source failed, it delivered a short block
where those are rejected, or a hardened wait made its last read. -/
inductive FailsWith (s : State) : ResultKind → State → Prop where
  | source (hload : s.pc.major = .run9 ∨ s.pc.major = .cmdLoad) (plan : List ImgPlan) :
      FailsWith s .imageSourceUnavailable { s with imgPlan := plan, trace := s.trace ++ [.imgErr] }
  | shortBlock (hload : s.pc.major = .run9 ∨ s.pc.major = .cmdLoad) (hpolicy : s.cfg.shortBlockPolicy = .reject)
      (c : List Byte) (plan : List ImgPlan) :
      FailsWith s .malformedImage (storeBlock c { s with
        imgPlan := plan, imgPos := s.imgPos + c.length, trace := s.trace ++ [.img c] })
  | timeout (hwait : isWait s.pc.major = true) (hlimit : s.cfg.pollLimit ≠ none) :
      FailsWith s .configurationTimedOut (countPoll (readStat s))

/-- What a step makes of the command in progress: it goes on, ends with `Ok`, or fails. -/
inductive CommandOutcome (s : State) : State → Prop where
  | goesOn (t : State) (hbusy : t.busy = true) : CommandOutcome s t
  | succeeds (u : State) : CommandOutcome s (finish .ok u)
  | fails (r : ResultKind) (u : State) (h : FailsWith s r u) : CommandOutcome s (finish r u)

/-- Past a major step a command does not fail. -/
theorem commandOutcome_afterMajor (m : Major) (hu : u.busy = true) : CommandOutcome s (afterMajor m u) := by
  obtain ⟨hbusy, -⟩ | hfinish := afterMajor_stays_or_finishes m u
  · exact .goesOn _ (hbusy.trans hu)
  · rw [hfinish]
    exact .succeeds u

/-! ### Each shared step -/

theorem reportStep_outcome (hbusy : s.busy = true) (h : reportStep (afterMajor m) s = .next t) :
    CommandOutcome s t := by
  obtain ⟨-, rfl⟩ | ⟨-, rfl⟩ | ⟨-, rfl⟩ := reportStep_next.mp h
  · exact .goesOn _ hbusy
  · exact .goesOn _ hbusy
  · exact commandOutcome_afterMajor m (u := takeSnap (readGpio s)) hbusy

theorem controlFieldStep_outcome {f : CtrlField} {val : Nat} (hbusy : s.busy = true)
    (hfits : fitsField (ctrlDesc f) val = true)
    (h : controlFieldStep f val (goto m .m1) (afterMajor m) s = .next t) : CommandOutcome s t := by
  obtain ⟨hunfit, -⟩ | ⟨-, -, rfl⟩ | ⟨-, -, rfl⟩ := controlFieldStep_next.mp h
  · simp [hunfit] at hfits
  · exact .goesOn _ hbusy
  · exact commandOutcome_afterMajor m (u := writeCtrl _ s) hbusy

theorem statusModeStep_outcome (hbusy : s.busy = true)
    (h : statusModeStep 1 (goto .cmdReset .m1) (finish .ok) s = .next t) : CommandOutcome s t := by
  obtain ⟨hunfit, -⟩ | ⟨-, -, rfl⟩ | ⟨-, -, rfl⟩ := statusModeStep_next.mp h
  · exact absurd hunfit (by decide)
  · exact .goesOn _ hbusy
  · exact .succeeds _

theorem waitStep_outcome {mode : BitVec 3} (hbusy : s.busy = true) (hm : awaited s.pc.major = some mode)
    (h : waitStep mode (afterMajor m) s = .next t) : CommandOutcome s t := by
  cases hl : s.cfg.pollLimit with
  | none =>
    obtain ⟨-, ⟨-, rfl⟩ | ⟨-, rfl⟩⟩ := (waitStep_next_baseline hl).mp h
    · exact commandOutcome_afterMajor m (u := readStat s) hbusy
    · exact .goesOn _ hbusy
  | some limit =>
    obtain ⟨-, ⟨-, rfl⟩ | ⟨-, -, rfl⟩ | ⟨-, -, rfl⟩⟩ := (waitStep_next_hardened hl).mp h
    · exact commandOutcome_afterMajor m (u := countPoll (readStat s)) hbusy
    · exact .fails _ _ (.timeout (isWait_of_awaited hm) (by simp [hl]))
    · exact .goesOn _ hbusy

theorem fetchStep_outcome (hbusy : s.busy = true) (hload : s.pc.major = .run9 ∨ s.pc.major = .cmdLoad) :
    CommandOutcome s (fetchStep (afterMajor m) s) := by
  obtain ⟨plan, hplan, -⟩ | ⟨c, plan, -, -, -, -, -, hread⟩ := imgRead_cases s
  · rw [fetchStep_fails hplan]
    exact .fails _ _ (.source hload plan)
  · obtain ⟨u, hu, -⟩ | ⟨c', u, hu, h⟩ := fetchStep_cases (afterMajor m) s <;> cases hu.symm.trans hread
    obtain ⟨-, h⟩ | ⟨-, h⟩ | ⟨-, -, -, h⟩ | ⟨-, -, hpolicy, h⟩ := h <;> rw [h]
    · exact .goesOn _ hbusy
    · exact commandOutcome_afterMajor m (u := storeBlock c _) hbusy
    · exact .goesOn _ hbusy
    · exact .fails _ _ (.shortBlock hload hpolicy c plan)

theorem loadStep_outcome (hbusy : s.busy = true) (hload : s.pc.major = .run9 ∨ s.pc.major = .cmdLoad)
    (h : loadStep (afterMajor m) s = .next t) : CommandOutcome s t := by
  obtain ⟨-, rfl⟩ | ⟨-, rfl⟩ := loadStep_next.mp h
  · exact fetchStep_outcome hbusy hload
  · obtain ⟨-, h⟩ | ⟨-, h⟩ := writeStep_cases (afterMajor m) s <;> rw [h]
    · exact .goesOn _ hbusy
    · exact commandOutcome_afterMajor m (u := writeData s.w s) hbusy

/-! ### The step of the block -/

/-- In a state of the invariant the value of a read-modify-write fits its field. -/
theorem State.Inv.field_fits {f : CtrlField} {val : Nat} (hs : s.Inv) (hm : s.pc.major ≠ .idle)
    (hf : fieldAt s = some (f, val)) : fitsField (ctrlDesc f) val = true := by
  obtain ⟨i, hi, hx⟩ := hs.executing hm
  obtain ⟨f', val', hf', hfits⟩ := fieldAt_fits (fieldAt_major hf) hi hx.fits
  cases hf.symm.trans hf'
  exact hfits

/-- A step inside a command goes on, ends with `Ok`, or fails for one of the three reasons of `FailsWith`. -/
theorem State.Inv.commandOutcome (hs : s.Inv) (hbusy : s.busy = true) (h : blockStep s = .next t) :
    CommandOutcome s t := by
  have hm : s.pc.major ≠ .idle := of_decide_eq_true (hs.busy_eq ▸ hbusy)
  rcases blockStep_cases h with ⟨hpc, -⟩ | ⟨w, rest, hpc, -⟩ | ⟨w, rest, i, hpc, -⟩ | ⟨-, h⟩ | ⟨f, val, hf, h⟩ |
    ⟨-, h⟩ | ⟨mode, hwait, h⟩ | ⟨hload, h⟩
  · exact absurd (congrArg Pc.major hpc) hm
  · exact absurd (congrArg Pc.major hpc) hm
  · exact absurd (congrArg Pc.major hpc) hm
  · exact reportStep_outcome hbusy h
  · exact controlFieldStep_outcome hbusy (hs.field_fits hm hf) h
  · exact statusModeStep_outcome hbusy h
  · exact waitStep_outcome hbusy hwait h
  · exact loadStep_outcome hbusy hload h

/-- A step that ends a command ends it with result 1, or with the result of a failure. -/
theorem State.Inv.ends (hs : s.Inv) (hbusy : s.busy = true) (h : blockStep s = .next t) (hfree : t.busy = false) :
    t.result = 1 ∨ ∃ r u, FailsWith s r u ∧ t = finish r u := by
  cases hs.commandOutcome hbusy h with
  | goesOn t hbusy' => simp [hfree] at hbusy'
  | succeeds u => exact .inl rfl
  | fails r u hfails => exact .inr ⟨r, u, hfails, rfl⟩

/-- Settles O46: each failure of `FailsWith` is one read, which leaves the device, `snap`, `cmd`, `ctl` and `gp`
alone, and the end of the command adds RES. -/
theorem errorsRollNothingBack : Obligations.ErrorsRollNothingBack := by
  intro s t hs hbusy h hfree herror
  obtain hok | ⟨r, u, hfails, rfl⟩ := hs.ends hbusy h hfree
  · exact absurd hok herror
  · cases hfails <;>
      exact ⟨rfl, rfl, rfl, rfl, rfl, rfl, rfl, rfl, _, rfl, rfl, List.append_assoc ..⟩

/-! ### Results by command -/

/-- A wait is part of a run. -/
theorem isRun_of_isWait (hwait : isWait m = true) : isRun m = true := by
  cases m with
  | idle | cmdReport | cmdSetf | cmdReset | cmdLoad => cases hwait
  | _ => rfl

/-- A load is step 9 of a run, or the command `load_bitstream`. -/
theorem inProgress_of_load (hload : s.pc.major = .run9 ∨ s.pc.major = .cmdLoad) (hi : inProgress s = some i) :
    i = .runConfiguration ∨ i = .loadBitstream := by
  obtain hm | hm := hload <;> simp only [inProgress, hm, Option.some.injEq] at hi
  · exact .inl hi.symm
  · exact .inr hi.symm

/-- The operands that do not fit: above 1 for a field of one bit, above 3 for `cdratio` (R210). -/
theorem exists_val_of_not_valueFits (hunfit : valueFits i = false) :
    ∃ val : BitVec 8,
      ((i = .setCtrlEn val ∨ i = .setNconfigpull val ∨ i = .setAxicfgen val) ∧ 1 < val.toNat) ∨
      (i = .setCdratio val ∧ 3 < val.toNat) := by
  cases i with
  | setCtrlEn val => exact ⟨val, .inl ⟨.inl rfl, not_le.mp (of_decide_eq_false hunfit)⟩⟩
  | setNconfigpull val => exact ⟨val, .inl ⟨.inr (.inl rfl), not_le.mp (of_decide_eq_false hunfit)⟩⟩
  | setAxicfgen val => exact ⟨val, .inl ⟨.inr (.inr rfl), not_le.mp (of_decide_eq_false hunfit)⟩⟩
  | setCdratio val => exact ⟨val, .inr ⟨rfl, not_le.mp (of_decide_eq_false hunfit)⟩⟩
  | _ => cases hunfit

/-- Settles O45: at acceptance the word is illegal or meets the checks of `blockStep_offered_next`; in progress the
command ends with `Ok` or with one of the failures of `FailsWith`, each at its own major steps. -/
theorem resultsByCommand : Obligations.ResultsByCommand := by
  refine ⟨fun s t w rest i hpc hport h hfree => ⟨fun hd => ?_, fun hd => ?_⟩, fun s t i hs hi h hfree => ?_⟩
  · rw [blockStep_illegal_word hpc hport hd] at h
    cases h
    rfl
  · obtain ⟨hmap, rfl⟩ | ⟨-, hunfit, rfl⟩ | ⟨-, -, rfl⟩ := (blockStep_offered_next hpc hport hd).mp h
    · exact .inl ⟨rfl, hmap⟩
    · exact .inr ⟨rfl, exists_val_of_not_valueFits hunfit⟩
    · cases hfree
  · have hm : s.pc.major ≠ .idle := fun hidle => by simp [inProgress, hidle] at hi
    have hbusy : s.busy = true := by rw [hs.busy_eq, decide_eq_true hm]
    obtain hok | ⟨r, u, hfails, rfl⟩ := hs.ends hbusy h hfree
    · exact .inl hok
    · cases hfails with
      | source hload => exact .inr (.inl ⟨rfl, inProgress_of_load hload hi⟩)
      | shortBlock hload hpolicy => exact .inr (.inr (.inl ⟨rfl, inProgress_of_load hload hi, hpolicy⟩))
      | timeout hwait hlimit =>
        have hrun := inProgress_of_run (isRun_of_isWait hwait)
        exact .inr (.inr (.inr ⟨rfl, Option.some.inj (hi.symm.trans hrun), hlimit⟩))

end Sys2Proof.Machine
end

section
/-! PROOF. The read half comes right before the write half (R290, R122, R123), and a block reset between the two
drops the write (R280, R281). -/

namespace Sys2Proof.Machine

variable {s t u : State} {m : Major}

/-! ### Before a write half -/

/-- Away from the write half of a read-modify-write there is nothing to say. -/
theorem readBeforeWrite_of_elsewhere (h : t.pc.minor = .m0 ∨ t.pc.major ∉ .cmdReset :: ctrlWriters) :
    ReadBeforeWrite t := by
  have hnot {m : Major} (hm : m ∈ .cmdReset :: ctrlWriters) : t.pc ≠ ⟨m, .m1⟩ := by
    intro hpc
    rw [hpc] at h
    exact h.elim nofun fun hout => hout hm
  refine ⟨fun ⟨hminor, hm⟩ => absurd ?_ (hnot (List.mem_cons_of_mem _ hm)), fun hpc => absurd hpc (hnot (by simp))⟩
  rw [← hminor]

/-- The read half of a read-modify-write of CTRL (R122). -/
theorem readBeforeWrite_readCtrl (hm : m ∈ ctrlWriters) : ReadBeforeWrite (goto m .m1 (readCtrl s)) := by
  have hother : m ≠ .cmdReset := fun hreset => absurd hm (by rw [hreset]; decide)
  exact ⟨fun _ => List.getLast?_concat .., fun hpc => absurd (congrArg Pc.major hpc) hother⟩

/-- The read half of `reset` (R123). -/
theorem readBeforeWrite_readStat : ReadBeforeWrite (goto .cmdReset .m1 (readStat s)) :=
  ⟨fun ⟨_, hm⟩ => absurd hm (show .cmdReset ∉ ctrlWriters by decide), fun _ => List.getLast?_concat ..⟩

/-! ### The steps that make no read half -/

theorem Accepts.minor_eq (h : Accepts u t) : t.pc.minor = .m0 := by
  cases h <;> rfl

/-- A busy step stays inside its major step, or leaves the block before another one. -/
theorem MovesOn.minor_or_major (h : MovesOn s u t) (hu : u.pc = s.pc) :
    t.pc.minor = .m0 ∨ t.pc.major = s.pc.major := by
  cases h with
  | phase => exact .inr rfl
  | done => exact .inl (congrArg Pc.minor (afterMajor_pc _ u))
  | ends => exact .inl rfl
  | waits => exact .inr (congrArg Pc.major hu)

/-- Inside a major step without a read-modify-write a step leaves the block before no write half. -/
theorem readBeforeWrite_of_moves (hm : s.pc.major ∉ .cmdReset :: ctrlWriters)
    (h : ∃ e u, Accesses s e u ∧ MovesOn s u t) : ReadBeforeWrite t := by
  obtain ⟨e, u, haccess, hmove⟩ := h
  obtain ⟨hpc, -⟩ := haccess.pc_cmd_cfg
  exact readBeforeWrite_of_elsewhere ((hmove.minor_or_major hpc).imp_right fun hsame => by rwa [hsame])

theorem controlFieldStep_readBeforeWrite {f : CtrlField} {val : Nat} (hm : m ∈ ctrlWriters)
    (h : controlFieldStep f val (goto m .m1) (afterMajor m) s = .next t) : ReadBeforeWrite t := by
  obtain ⟨-, rfl⟩ | ⟨-, -, rfl⟩ | ⟨-, -, rfl⟩ := controlFieldStep_next.mp h
  · exact readBeforeWrite_of_elsewhere (.inl rfl)
  · exact readBeforeWrite_readCtrl hm
  · exact readBeforeWrite_of_elsewhere (.inl (congrArg Pc.minor (afterMajor_pc m _)))

theorem statusModeStep_readBeforeWrite {val : Nat}
    (h : statusModeStep val (goto .cmdReset .m1) (finish .ok) s = .next t) : ReadBeforeWrite t := by
  obtain ⟨-, rfl⟩ | ⟨-, -, rfl⟩ | ⟨-, -, rfl⟩ := statusModeStep_next.mp h
  · exact readBeforeWrite_of_elsewhere (.inl rfl)
  · exact readBeforeWrite_readStat
  · exact readBeforeWrite_of_elsewhere (.inl rfl)

/-- In IDLE a step leaves the block before no write half. -/
theorem blockStep_idle_readBeforeWrite (hpc : s.pc = ⟨.idle, .m0⟩) (h : blockStep s = .next t) :
    ReadBeforeWrite t := by
  obtain ⟨-, rfl⟩ | ⟨w, rest, -, haccept⟩ := blockStep_idle_next h (by rw [hpc])
  · exact readBeforeWrite_of_elsewhere (.inl (by rw [hpc]))
  · exact readBeforeWrite_of_elsewhere (.inl haccept.minor_eq)

/-- Settles O49: of the steps of `blockStep_cases` only the two kinds of read-modify-write leave the block before a
write half, each by its read half. -/
theorem everyWriteFollowsItsOwnRead : Obligations.EveryWriteFollowsItsOwnRead := by
  intro s t hstep
  obtain ⟨-, hblock⟩ := step_next.mp hstep
  rcases blockStep_cases hblock with ⟨hpc, -⟩ | ⟨w, rest, hpc, -⟩ | ⟨w, rest, i, hpc, -⟩ | ⟨hm, h⟩ |
    ⟨f, val, hf, h⟩ | ⟨-, h⟩ | ⟨mode, hm, h⟩ | ⟨hm, h⟩
  · exact blockStep_idle_readBeforeWrite hpc hblock
  · exact blockStep_idle_readBeforeWrite hpc hblock
  · exact blockStep_idle_readBeforeWrite hpc hblock
  · exact readBeforeWrite_of_moves (by rcases hm with hm | hm | hm <;> rw [hm] <;> decide) (reportStep_moves hm h)
  · exact controlFieldStep_readBeforeWrite (fieldAt_major hf) h
  · exact statusModeStep_readBeforeWrite h
  · have hwait := isWait_of_awaited hm
    refine readBeforeWrite_of_moves (fun hwriter => ?_) (waitStep_moves hm h)
    have hnone : ∀ m ∈ .cmdReset :: ctrlWriters, isWait m = false := by decide
    simp [hnone _ hwriter] at hwait
  · exact readBeforeWrite_of_moves (by rcases hm with hm | hm <;> rw [hm] <;> decide) (loadStep_moves hm h)

/-! ### A block reset between the halves -/

/-- The read half of any read-modify-write, with no move of the environment before it, changes nothing of the device
and leaves the block before the write half. -/
theorem step_read_half {later : List (List EnvMove)} (hs : s.Inv) (hv : s.cfg.valid = true)
    (hminor : s.pc.minor = .m0) (hm : s.pc.major ∈ ctrlWriters ∨ s.pc.major = .cmdReset)
    (henv : s.env = [] :: later) :
    ∃ u, step s = .next u ∧
      u = { s with pc := ⟨s.pc.major, .m1⟩, env := later, ctl := u.ctl, st := u.st, trace := u.trace } := by
  simp only [step_next, applyEnv_of_cons henv]
  obtain hwriter | hreset := hm
  · have hbusy : s.pc.major ≠ .idle := fun hidle => by simp [hidle, ctrlWriters] at hwriter
    obtain ⟨i, hi, hx⟩ := hs.executing hbusy
    obtain ⟨f, val, hf, hfits⟩ := fieldAt_fits hwriter hi hx.fits
    exact ⟨_, ⟨hv, blockStep_field_read (s := { s with env := later }) hf hfits hminor⟩, rfl⟩
  · have hpc : s.pc = ⟨.cmdReset, .m0⟩ := by rw [← hreset, ← hminor]
    rw [hreset]
    exact ⟨_, ⟨hv, blockStep_reset_read (s := { s with env := later }) hpc⟩, rfl⟩

/-- A step after a block reset finds the block idle: it writes nothing, and with no word offered does nothing. -/
theorem step_after_blockReset {later : List (List EnvMove)} (hv : u.cfg.valid = true)
    (henv : u.env = [.blockReset] :: later) :
    ∃ t, step u = .next t ∧
      t.statReg = u.statReg ∧ t.ctrlReg = u.ctrlReg ∧ t.gpioReg = u.gpioReg ∧ t.fifo = u.fifo ∧
      t.trace.filter isWrite = [] ∧
      (u.cmdPort = [] → t.pc = ⟨.idle, .m0⟩ ∧ t.busy = false ∧ t.result = 0 ∧ t.trace = []) := by
  obtain ⟨t, hblock⟩ := blockStep_idle_progress (s := blockReset { u with env := later }) rfl
  have hstep : step u = .next t := step_next.mpr ⟨hv, by rw [applyEnv_of_cons henv]; exact hblock⟩
  refine ⟨t, hstep, ?_⟩
  obtain ⟨-, rfl⟩ | ⟨w, rest, hport, haccept⟩ := blockStep_idle_next hblock rfl
  · exact ⟨rfl, rfl, rfl, rfl, rfl, fun _ => ⟨rfl, rfl, rfl, rfl⟩⟩
  · have hwrites : t.trace.filter isWrite = [] := by
      obtain htrace | htrace := haccept.events <;> rw [htrace] <;> rfl
    have hoffered : u.cmdPort ≠ [] := hport ▸ List.cons_ne_nil w rest
    rw [haccept.frame]
    exact ⟨rfl, rfl, rfl, rfl, hwrites, fun hnone => absurd hnone hoffered⟩

/-- Settles O53: the read half (`step_read_half`) changes nothing of the device, and the step after the block reset
finds the block idle (`step_after_blockReset`). -/
theorem resetBetweenHalvesDropsTheWrite : Obligations.ResetBetweenHalvesDropsTheWrite := by
  intro s later hs hv hminor hm henv
  obtain ⟨u, hread, hu⟩ := step_read_half hs hv hminor hm henv
  obtain ⟨t, hreset, hdropped⟩ := step_after_blockReset (u := u) (later := later) (by rwa [hu]) (by rw [hu])
  rw [hu] at hdropped
  exact ⟨u, t, hread, by rw [hu], everyWriteFollowsItsOwnRead s u hread, hreset, hdropped⟩

end Sys2Proof.Machine
end

section
/-! PROOF. A run of the hardened variant ends (R151, R170, R305): from each `pc` of a run a bound on the steps left,
which every step lowers, whatever the device shows. -/

namespace Sys2Proof.Machine

variable {s t u : State} {m : Major} {limit len k : Nat}

/-! ### The steps left -/

/-- The major steps of a run in their order (R165). -/
def runMajors : List Major :=
  [.run1, .run2, .run3, .run4, .run5, .run6, .run7, .run8, .run9, .run10, .run11a, .run11b, .run12]

/-- The most steps a major step of a run takes, with `len` bytes of the image left (R170, R305). -/
def stepsOf (limit len : Nat) (m : Major) : Nat :=
  if isWait m then limit else match m with
    | .run1 | .run12 => 3
    | .run9 => loadSteps len
    | _ => 2

/-- The most steps a run takes from the beginning of the major step `m`; none in IDLE. -/
def stepsFrom (limit len : Nat) (m : Major) : Nat :=
  ((runMajors.dropWhile (· ≠ m)).map (stepsOf limit len)).sum

/-- The bytes of the image that are left. -/
def bytesLeft (s : State) : Nat := (s.image.drop s.imgPos).length

@[simp] theorem bytesLeft_goto (m : Major) (p : Minor) (s : State) : bytesLeft (goto m p s) = bytesLeft s := rfl

/-- The phases of a major step that are done when it stands at this one. -/
def phasesDone : Minor → Nat
  | .m0 => 0
  | .m1 => 1
  | .m2 => 2

/-- The most steps left of the major step at which a run stands. -/
def stepsHere (limit : Nat) (s : State) : Nat :=
  if isWait s.pc.major then limit - s.polls
  else if s.pc = ⟨.run9, .m1⟩ then (if s.n = 4 then 1 + loadSteps (bytesLeft s) else 1)
  else stepsOf limit (bytesLeft s) s.pc.major - phasesDone s.pc.minor

/-- Where each phase is one step, those not done are left. -/
theorem stepsHere_of_phases (hwait : isWait s.pc.major = false) (hload : s.pc ≠ ⟨.run9, .m1⟩) :
    stepsHere limit s = stepsOf limit (bytesLeft s) s.pc.major - phasesDone s.pc.minor := by
  rw [stepsHere, if_neg (by simp [hwait]), if_neg hload]

/-- At a wait the reads not yet made are left. -/
theorem stepsHere_of_wait (hwait : isWait s.pc.major = true) : stepsHere limit s = limit - s.polls := if_pos hwait

/-- From the beginning of a major step the bound is that of this step and of those after it. -/
theorem stepsFrom_eq (hrun : isRun m = true) :
    stepsFrom limit len m = stepsOf limit len m + stepsFrom limit len (nextMajor m) := by
  cases m with
  | idle | cmdReport | cmdSetf | cmdReset | cmdLoad => cases hrun
  | _ => rfl

/-- A major step that is no wait has as many steps as phases, or more (R21). -/
theorem phasesDone_lt_stepsOf {p : Pc} (hrun : isRun p.major = true) (hlegal : pcLegal p = true)
    (hwait : isWait p.major = false) (hload : p ≠ ⟨.run9, .m1⟩) :
    phasesDone p.minor < stepsOf limit len p.major := by
  obtain ⟨m, k⟩ := p
  cases m with
  | idle | cmdReport | cmdSetf | cmdReset | cmdLoad => cases hrun
  | run4 | run7 | run10 => cases hwait
  | run1 | run12 => cases k <;> exact of_decide_eq_true rfl
  | run9 =>
    cases k with
    | m0 => exact Nat.lt_add_left _ (Nat.succ_pos _)
    | m1 => exact absurd rfl hload
    | m2 => cases hlegal
  | _ =>
    cases k with
    | m2 => cases hlegal
    | _ => exact of_decide_eq_true rfl

/-- A hardened run is in progress with a well-behaved source, and at most `k` steps of it are left. -/
structure Running (limit k : Nat) (s : State) : Prop where
  valid : s.cfg.valid = true
  limit_eq : s.cfg.pollLimit = some limit
  run : isRun s.pc.major = true
  legal : pcLegal s.pc = true
  plan : s.imgPlan = []
  polls : isWait s.pc.major = true → s.polls < limit
  left : stepsHere limit s + stepsFrom limit (bytesLeft s) (nextMajor s.pc.major) ≤ k

/-- The command has ended with result 1, 5 or 6. -/
def RunEnded (t : State) : Prop :=
  t.pc = ⟨.idle, .m0⟩ ∧ t.busy = false ∧ t.result ∈ ([1, 5, 6] : List (BitVec 4))

theorem runEnded_finish {r : ResultKind} (hr : resultCode r ∈ ([1, 5, 6] : List (BitVec 4))) :
    RunEnded (finish r u) := ⟨rfl, rfl, hr⟩

/-- At the beginning of a major step of a run the bound is `stepsFrom`. -/
theorem running_begin (hv : s.cfg.valid = true) (hlimit : s.cfg.pollLimit = some limit) (hpc : s.pc = ⟨m, .m0⟩)
    (hrun : isRun m = true) (hplan : s.imgPlan = []) (hpolls : isWait m = true → s.polls = 0)
    (hleft : stepsFrom limit (bytesLeft s) m ≤ k) : Running limit k s := by
  have hmajor : s.pc.major = m := by rw [hpc]
  have hpos := limit_pos_of_valid hv limit hlimit
  have hlegal : pcLegal s.pc = true := by
    rw [hpc]
    cases m <;> rfl
  have hhere : stepsHere limit s = stepsOf limit (bytesLeft s) m := by
    unfold stepsHere
    rw [hpc]
    by_cases hwait : isWait m = true
    · simp [hwait, stepsOf, hpolls hwait]
    · simp [hwait, phasesDone]
  rw [stepsFrom_eq hrun, ← hhere, ← hmajor] at hleft
  exact ⟨hv, hlimit, hmajor ▸ hrun, hlegal, hplan, fun hwait => hpolls (hmajor ▸ hwait) ▸ hpos, hleft⟩

/-- A run in progress has a step left at its major step. -/
theorem Running.stepsHere_pos (hs : Running limit k s) : 0 < stepsHere limit s := by
  unfold stepsHere
  split_ifs with hwait hload hfull
  · exact Nat.sub_pos_of_lt (hs.polls hwait)
  · omega
  · omega
  · exact Nat.sub_pos_of_lt (phasesDone_lt_stepsOf hs.run hs.legal (Bool.eq_false_iff.mpr hwait) hload)

/-! ### What a step does to them -/

/-- A wait is entered with `polls` 0 (R165). -/
theorem afterMajor_polls (hwait : isWait (nextMajor m) = true) (u : State) : (afterMajor m u).polls = 0 := by
  cases m with
  | run3 | run6 | run9 => rfl
  | _ => cases hwait

/-- Past a major step of a run other than the last the run goes on. -/
theorem isRun_nextMajor (hrun : isRun m = true) (hlast : m ≠ .run12) : isRun (nextMajor m) = true := by
  cases m with
  | idle | cmdReport | cmdSetf | cmdReset | cmdLoad => cases hrun
  | run12 => exact absurd rfl hlast
  | _ => rfl

/-- Past a major step the image source is as it was. -/
theorem afterMajor_source (m : Major) (u : State) :
    (afterMajor m u).imgPlan = u.imgPlan ∧ bytesLeft (afterMajor m u) = bytesLeft u := by
  rw [(afterMajor_frame m u).1]
  exact ⟨rfl, rfl⟩

/-- Past the last major step the run has ended; past another one it is before the next. What is left of the image
does not matter after the load. -/
theorem Running.past_major (hs : Running limit (k + 1) s) (hcfg : u.cfg = s.cfg) (hplan : u.imgPlan = [])
    (hbytes : s.pc.major = .run9 ∨ bytesLeft u = bytesLeft s) :
    RunEnded (afterMajor s.pc.major u) ∨ Running limit k (afterMajor s.pc.major u) := by
  by_cases hlast : s.pc.major = .run12
  · rw [hlast]
    exact .inl (runEnded_finish (by decide))
  · have hfrom : stepsFrom limit (bytesLeft u) (nextMajor s.pc.major) =
        stepsFrom limit (bytesLeft s) (nextMajor s.pc.major) := by
      obtain hload | hbytes := hbytes
      · rw [hload]
        rfl
      · rw [hbytes]
    obtain ⟨hplan', hbytes'⟩ := afterMajor_source s.pc.major u
    have hcfg' := (afterMajor_cfg s.pc.major u).trans hcfg
    have hpos := hs.stepsHere_pos
    have hleft := hs.left
    refine .inr (running_begin (hcfg' ▸ hs.valid) (hcfg' ▸ hs.limit_eq) (afterMajor_pc _ u)
      (isRun_nextMajor hs.run hlast) (hplan'.trans hplan) (afterMajor_polls · u) ?_)
    rw [hbytes', hfrom]
    omega

/-- To the next phase of a report or a read-modify-write. -/
theorem Running.phase {p : Minor} (hs : Running limit (k + 1) s) (hwait : isWait s.pc.major = false)
    (hload : s.pc.major ≠ .run9) (hp : phasesDone p = phasesDone s.pc.minor + 1)
    (hlegal : pcLegal ⟨s.pc.major, p⟩ = true) (hcfg : u.cfg = s.cfg) (hplan : u.imgPlan = s.imgPlan)
    (hbytes : bytesLeft u = bytesLeft s) : Running limit k (goto s.pc.major p u) := by
  have hother {p : Minor} : (⟨s.pc.major, p⟩ : Pc) ≠ ⟨.run9, .m1⟩ := fun hpc => hload (congrArg Pc.major hpc)
  have hlt : phasesDone p < stepsOf limit (bytesLeft s) s.pc.major :=
    phasesDone_lt_stepsOf (p := ⟨s.pc.major, p⟩) hs.run hlegal hwait hother
  have hleft := hs.left
  rw [stepsHere_of_phases hwait hother] at hleft
  refine ⟨hcfg ▸ hs.valid, hcfg ▸ hs.limit_eq, hs.run, hlegal, hplan.trans hs.plan, by simp [hwait], ?_⟩
  rw [stepsHere_of_phases (s := goto s.pc.major p u) hwait hother, goto_pc, bytesLeft_goto, hbytes]
  dsimp only
  omega

/-- A read of a wait that is neither the last nor shows the target. -/
theorem Running.wait (hs : Running limit (k + 1) s) (hwait : isWait s.pc.major = true) (hne : s.polls + 1 ≠ limit) :
    Running limit k (countPoll (readStat s)) := by
  have hlt := hs.polls hwait
  have hleft := hs.left
  rw [stepsHere_of_wait hwait] at hleft
  refine { hs with polls := fun _ => ?_, left := ?_ }
  · rw [countPoll_polls, readStat_polls]
    omega
  · rw [stepsHere_of_wait (s := countPoll (readStat s)) hwait, countPoll_polls, readStat_polls]
    change limit - (s.polls + 1) + stepsFrom limit (bytesLeft s) (nextMajor s.pc.major) ≤ k
    omega

/-! ### The load -/

/-- At the write of the loader: the write, and after a full block the rest of the load. -/
theorem stepsHere_of_write (hpc : s.pc = ⟨.run9, .m1⟩) :
    stepsHere limit s = if s.n = 4 then 1 + loadSteps (bytesLeft s) else 1 := by
  rw [stepsHere, if_neg (by simp [hpc, isWait]), if_pos hpc]

/-- At the fetch of the loader: the whole load. -/
theorem stepsHere_of_fetch (hpc : s.pc = ⟨.run9, .m0⟩) : stepsHere limit s = loadSteps (bytesLeft s) := by
  rw [stepsHere_of_phases (by rw [hpc]; rfl) (by simp [hpc]), hpc]
  rfl

/-- After the load comes the last wait (R165). -/
theorem Running.left_of_load (hs : Running limit k s) (hm : s.pc.major = .run9) :
    stepsHere limit s + stepsFrom limit (bytesLeft s) .run10 ≤ k := by
  have hleft := hs.left
  rwa [hm] at hleft

/-- A block that was fetched takes the steps of its write and of the rest of the load. -/
theorem Running.fetch {c : List Byte} (hs : Running limit (k + 1) s) (hpc : s.pc = ⟨.run9, .m0⟩)
    (hc : c.length = min 4 (bytesLeft s)) (hne : c.length ≠ 0) :
    Running limit k (goto .run9 .m1 (fetched s c [])) := by
  have hn : (fetched s c []).n = 4 ↔ 4 ≤ bytesLeft s := by
    change BitVec.ofNat 3 c.length = BitVec.ofNat 3 4 ↔ _
    rw [← BitVec.toNat_inj, BitVec.toNat_ofNat, BitVec.toNat_ofNat]
    omega
  have hbytes : bytesLeft (fetched s c []) = bytesLeft s - c.length := by
    change (s.image.drop (s.imgPos + c.length)).length = _
    rw [bytesLeft, ← List.drop_drop, List.length_drop]
  have hhere : stepsHere limit (goto .run9 .m1 (fetched s c [])) + 1 = loadSteps (bytesLeft s) := by
    rw [stepsHere_of_write rfl, goto_n, bytesLeft_goto, hbytes]
    split_ifs with hfour
    · have hfull := hn.mp hfour
      rw [loadSteps_of_full hfull, hc, Nat.min_eq_left hfull]
      omega
    · have hshort := mt hn.mpr hfour
      rw [loadSteps_of_short (by omega) (by omega)]
  have hleft := hs.left_of_load (by rw [hpc])
  rw [stepsHere_of_fetch hpc, ← hhere] at hleft
  refine ⟨hs.valid, hs.limit_eq, rfl, rfl, rfl, nofun, ?_⟩
  change _ + stepsFrom limit (bytesLeft s) .run10 ≤ k
  omega

/-- After the write of a full block the rest of the load is left. -/
theorem Running.feed (hs : Running limit (k + 1) s) (hpc : s.pc = ⟨.run9, .m1⟩) (hn : s.n = 4) (v : Word) :
    Running limit k (goto .run9 .m0 (writeData v s)) := by
  have hleft := hs.left_of_load (by rw [hpc])
  rw [stepsHere_of_write hpc, if_pos hn] at hleft
  refine ⟨hs.valid, hs.limit_eq, rfl, rfl, hs.plan, nofun, ?_⟩
  rw [stepsHere_of_fetch rfl]
  change loadSteps (bytesLeft s) + stepsFrom limit (bytesLeft s) .run10 ≤ k
  omega

/-! ### The step of the block -/

theorem Running.report_step (hs : Running limit (k + 1) s) (hm : s.pc.major = .run1 ∨ s.pc.major = .run12)
    (h : reportStep (afterMajor s.pc.major) s = .next t) : RunEnded t ∨ Running limit k t := by
  have hload : s.pc.major ≠ .run9 := by rcases hm with hm | hm <;> simp [hm]
  have hwait : isWait s.pc.major = false := by rcases hm with hm | hm <;> rw [hm] <;> rfl
  have hlegal (p : Minor) : pcLegal ⟨s.pc.major, p⟩ = true := by rcases hm with hm | hm <;> rw [hm] <;> rfl
  obtain ⟨hk, rfl⟩ | ⟨hk, rfl⟩ | ⟨hk, rfl⟩ := reportStep_next.mp h
  · exact .inr (hs.phase hwait hload (by rw [hk]; rfl) (hlegal _) rfl rfl rfl)
  · exact .inr (hs.phase hwait hload (by rw [hk]; rfl) (hlegal _) rfl rfl rfl)
  · exact hs.past_major rfl hs.plan (.inr rfl)

theorem Running.field_step {f : CtrlField} {val : Nat} (hs : Running limit (k + 1) s)
    (hf : fieldAt s = some (f, val))
    (h : controlFieldStep f val (goto s.pc.major .m1) (afterMajor s.pc.major) s = .next t) :
    RunEnded t ∨ Running limit k t := by
  have hfits := fitsField_of_run hs.run hf
  obtain ⟨hlegal, hwait, -⟩ := ctrlWriters_write_phase _ (fieldAt_major hf)
  have hload : s.pc.major ≠ .run9 := fun hload => by simp [fieldAt, hload] at hf
  obtain ⟨hunfit, -⟩ | ⟨-, hk, rfl⟩ | ⟨-, -, rfl⟩ := controlFieldStep_next.mp h
  · simp [hunfit] at hfits
  · exact .inr (hs.phase hwait hload (by rw [hk]; rfl) hlegal rfl rfl rfl)
  · exact hs.past_major rfl hs.plan (.inr rfl)

theorem Running.wait_step {mode : BitVec 3} (hs : Running limit (k + 1) s) (hm : awaited s.pc.major = some mode)
    (h : waitStep mode (afterMajor s.pc.major) s = .next t) : RunEnded t ∨ Running limit k t := by
  obtain ⟨-, ⟨-, rfl⟩ | ⟨-, -, rfl⟩ | ⟨-, hne, rfl⟩⟩ := (waitStep_next_hardened hs.limit_eq).mp h
  · exact hs.past_major rfl hs.plan (.inr rfl)
  · exact .inl (runEnded_finish (by decide))
  · exact .inr (hs.wait (isWait_of_awaited hm) hne)

theorem Running.fetch_step (hs : Running limit (k + 1) s) (hpc : s.pc = ⟨.run9, .m0⟩) :
    let t := fetchStep (afterMajor s.pc.major) s
    RunEnded t ∨ Running limit k t := by
  have hport : PortDelivers s ((s.image.drop s.imgPos).take 4) [] := .inl ⟨hs.plan, rfl, rfl⟩
  have hlen : ((s.image.drop s.imgPos).take 4).length = min 4 (bytesLeft s) := List.length_take
  have hmajor : s.pc.major = .run9 := by rw [hpc]
  by_cases hnone : ((s.image.drop s.imgPos).take 4).length = 0
  · rw [fetchStep_at_end hport hnone]
    exact hs.past_major rfl rfl (.inl hmajor)
  · by_cases hfull : ((s.image.drop s.imgPos).take 4).length = 4
    · rw [fetchStep_goes_on hport (.inl hfull), hmajor]
      exact .inr (hs.fetch hpc hlen hnone)
    · cases hpolicy : s.cfg.shortBlockPolicy with
      | zeroPad =>
        rw [fetchStep_goes_on hport (.inr ⟨hnone, hpolicy⟩), hmajor]
        exact .inr (hs.fetch hpc hlen hnone)
      | reject =>
        rw [fetchStep_rejects hport hnone hfull hpolicy]
        exact .inl ⟨rfl, rfl, by simp [ended]⟩

theorem Running.load_step (hs : Running limit (k + 1) s) (hm : s.pc.major = .run9)
    (h : loadStep (afterMajor s.pc.major) s = .next t) : RunEnded t ∨ Running limit k t := by
  obtain ⟨hk, rfl⟩ | ⟨hk, rfl⟩ := loadStep_next.mp h
  · exact hs.fetch_step (by rw [← hm, ← hk])
  · obtain ⟨hn, h⟩ | ⟨-, h⟩ := writeStep_cases (afterMajor s.pc.major) s <;> rw [h]
    · rw [hm]
      exact .inr (hs.feed (by rw [← hm, ← hk]) hn s.w)
    · exact hs.past_major rfl hs.plan (.inl hm)

/-- A run in progress has a step, which ends it or leaves fewer steps. -/
theorem Running.block_step (hs : Running limit (k + 1) s) :
    ∃ t, blockStep s = .next t ∧ (RunEnded t ∨ Running limit k t) := by
  obtain ⟨t, h⟩ := blockStep_busy_progress (inProgress_of_run hs.run) rfl hs.legal
  refine ⟨t, h, ?_⟩
  have hrun := hs.run
  rcases blockStep_cases h with ⟨hpc, -⟩ | ⟨w, rest, hpc, -⟩ | ⟨w, rest, i, hpc, -⟩ | ⟨hm, h⟩ |
    ⟨f, val, hf, h⟩ | ⟨hm, -⟩ | ⟨mode, hm, h⟩ | ⟨hm, h⟩
  · simp [hpc, isRun] at hrun
  · simp [hpc, isRun] at hrun
  · simp [hpc, isRun] at hrun
  · exact hs.report_step (hm.imp_right (Or.resolve_right · fun hm => by simp [hm, isRun] at hrun)) h
  · exact hs.field_step hf h
  · simp [hm, isRun] at hrun
  · exact hs.wait_step hm h
  · exact hs.load_step (hm.resolve_right fun hm => by simp [hm, isRun] at hrun) h

/-! ### The gap and the run -/

/-- Moves that neither reset the block nor supply an image leave a run where it is. -/
theorem Running.gap (hs : Running limit k s) (henv : Undisturbed s.env) : Running limit k (applyEnv s) := by
  refine applyEnv_induct s (fun ms hms m hm u hu => ?_) (fun _ _ hu => { hu with }) hs
  obtain ⟨hreset, himage⟩ := henv ms hms m hm
  cases m with
  | blockReset => exact absurd rfl hreset
  | supplyImage bytes plan => exact absurd rfl (himage bytes plan)
  | setWinMapped b =>
    rw [applyMove]
    split
    · exact hu
    · exact { hu with }
  | _ => exact { hu with }

/-- The schedule loses one gap at each step. -/
theorem step_env (h : step s = .next t) : t.env = s.env.tail := by
  obtain ⟨-, hblock⟩ := step_next.mp h
  obtain ⟨-, -, -, -, henv, -⟩ := deviceChangesOnlyByItsWrite _ t hblock
  rw [henv, applyEnv_env]

/-- A run with at most `k` steps left ends within them, by induction on `k`. -/
theorem Running.ends (hs : Running limit k s) (henv : Undisturbed s.env) :
    ∃ j t, j ≤ k ∧ runSteps j s = .next t ∧ RunEnded t := by
  induction k generalizing s with
  | zero =>
    have hpos := hs.stepsHere_pos
    have hleft := hs.left
    omega
  | succ k ih =>
    obtain ⟨t, hblock, ht⟩ := (hs.gap henv).block_step
    have hstep : step s = .next t := step_next.mpr ⟨hs.valid, hblock⟩
    obtain hended | hgoes := ht
    · exact ⟨1, t, by omega, runSteps_succ hstep 0, hended⟩
    · have henv' : Undisturbed t.env := fun ms hms => henv ms (List.mem_of_mem_tail (step_env hstep ▸ hms))
      obtain ⟨j, v, hj, hreached, hended⟩ := ih hgoes henv'
      exact ⟨j + 1, v, by omega, (runSteps_succ hstep j).trans hreached, hended⟩

/-- Settles O36: at its first step a run has at most the steps of R305 left, and it ends within them
(`Running.ends`). -/
theorem hardenedRunEnds : Obligations.HardenedRunEnds := by
  intro s limit hv hlimit hpc hplan henv len
  have hpos := limit_pos_of_valid hv limit hlimit
  have hbound : stepsFrom limit len .run1 = 23 + (len + 3) / 4 + len / 4 + 1 + 3 * (limit - 1) := by
    change 3 + (2 + (2 + (limit + (2 + (2 + (limit + (2 + (loadSteps len + (limit + (2 + (2 + (3 + 0)))))))))))) = _
    unfold loadSteps
    omega
  have hrun : Running limit _ s := running_begin hv hlimit hpc rfl hplan nofun hbound.le
  obtain ⟨k, t, hk, hreached, hended⟩ := hrun.ends henv
  exact ⟨k, t, hk, hreached, hended⟩

end Sys2Proof.Machine
end
